-- ==== Sys2Proof/Word.lean ====
section
/-! DEFINITION. The widths of the spec (00_scope.md R11, 30_encoding.md R96) and its enumerations (30_encoding.md R106). -/

namespace Sys2Proof

/-- The data byte (R11). -/
abbrev Byte := BitVec 8

/-- A bit slot, held in 4 bits; 12 to 15 are reserved (10_state.md R24). -/
abbrev Slot := BitVec 4

/-- The event word `W[16:0]` (30_encoding.md R96). -/
abbrev EventWord := BitVec 17

/-- The level of a line: `true` is 1 (released), `false` is 0 (pulled low). Also a one-bit operand. -/
abbrev Level := Bool

/-- The register `mode` (10_state.md R28). -/
inductive Mode where
  | read
  | write
  deriving DecidableEq, Repr

/-- The direction of a line (10_state.md R32). -/
inductive Dir where
  | input
  | output
  deriving DecidableEq, Repr

/-- The two locations of the line space (20_memory.md R60). -/
inductive Line where
  | scl
  | sda
  deriving DecidableEq, Repr

/-- The register `wr_status` (10_state.md R29). -/
inductive WrStatus where
  | inactive
  | active
  | success
  | failure
  deriving DecidableEq, Repr

end Sys2Proof
end

