-- ==== Sys2Proof/Config.lean ====
section
/-! DEFINITION. What an implementation fixes (00_scope.md R10: "a model takes them as a configuration record so that a claim
may quantify over them") and the one free value of the model. -/

namespace Sys2Proof

/-- The parameter record of R10, with the source's values as defaults. Durations are numbers of ticks of `tick` µs
(log entry 14). `LOG_CAPACITY` belongs to the excluded ring buffer (R8) and `N_PORTS` is `Config.nPorts`. -/
structure Params where
  /-- `T_READ_BIT`: read-bit deadline, armed after every accepted read edge. -/
  tReadBit : Nat := 100
  /-- `T_WRITE_BIT`: write-bit deadline, armed after every write edge that leaves the write in progress
  (42_write_frame.md R177; log entry 17). -/
  tWriteBit : Nat := 100
  /-- `T_WRITE_FIRST`: write-bit deadline for the first device-driven edge after inhibition. -/
  tWriteFirst : Nat := 1000
  /-- `T_INHIBIT`: inhibition hold. -/
  tInhibit : Nat := 300
  /-- `EARLY_ABORT_MAX_POS`: a read timeout at `rd_pos` ≤ this aborts without resend. -/
  earlyAbortMaxPos : Nat := 3
  /-- `RESEND_BYTE`: the byte written on abort with resend. -/
  resendByte : Byte := 0xFE#8
  /-- `RESEND_MAX`: bound on consecutive automatic resends; `none` is the default ∞. -/
  resendMax : Option Nat := none
  /-- `T_BLOCK_WRITE`: host-side wait on `lock` in `writeBlocking`. -/
  tBlockWrite : Nat := 1000000
  /-- `T_BLOCK_READ`: host-side wait in `read`. -/
  tBlockRead : Nat := 2000000
  /-- `TICK`: the time quantum in µs. -/
  tick : Nat := 1
  /-- `MIN_BIT_PERIOD`: environment assumption, shortest device clock period (40_edge_dispatch.md R128). -/
  minBitPeriod : Nat := 60
  /-- `QUEUE_CAP`: Byte Queue ceiling; `none` means that only the allocator limits the queue (44_host_boundary.md R237). -/
  queueCap : Option Nat := none
  deriving DecidableEq, Repr

/-- The instance with every default of R10. -/
def Params.default : Params := {}

/-- The time in µs that `n` ticks take (R10, row `TICK`). -/
def Params.micros (p : Params) (n : Nat) : Nat := n * p.tick

/-- `N_PORTS`: one physical port; all state is a singleton (R10, 60_exceptions.md R285). -/
def Config.nPorts : Nat := 1

/-- FREE VALUE (log entry 7): the outcome of the `n`-th `Alloc()` draw that `State.allocDraws` does not supply
(44_host_boundary.md R237: "a draw from the environment"). It has no body, so nothing can be proved of its value. -/
opaque Config.freeAlloc : Nat → Bool

end Sys2Proof
end

