-- ==== Sys2Proof/Syntax.lean ====
section
/-! DEFINITION. The operations of the block: one constructor per row of spec/opcode_table.json, in the table's order
(30_encoding.md R100). `d` is the SDA level sampled at an edge (40_edge_dispatch.md R125). -/

namespace Sys2Proof

/-- The 34 operations. Operands are typed, so every term is an operation the encoding admits. -/
inductive Instr where
  | rdStart (d : Level)
  | rdData1 (d : Level)
  | rdData2 (d : Level)
  | rdData3 (d : Level)
  | rdData4 (d : Level)
  | rdData5 (d : Level)
  | rdData6 (d : Level)
  | rdData7 (d : Level)
  | rdData8 (d : Level)
  | rdParity (d : Level)
  | rdStop (d : Level)
  | wrStart (d : Level)
  | wrData1 (d : Level)
  | wrData2 (d : Level)
  | wrData3 (d : Level)
  | wrData4 (d : Level)
  | wrData5 (d : Level)
  | wrData6 (d : Level)
  | wrData7 (d : Level)
  | wrData8 (d : Level)
  | wrParity (d : Level)
  | wrStop (d : Level)
  | wrAck (d : Level)
  | toRead
  | toWrite
  | toInhibit
  | hWrite (b : Byte)
  | hCollect
  | reset
  /-- `c` is `scl_dev`, `d` is `sda_dev` (30_encoding.md R99). -/
  | tick (c d : Level)
  /-- `p` is true when a callback is supplied (44_host_boundary.md R232). -/
  | hConfigure (p : Bool)
  | hEnableCb
  | hDisableCb
  | hRead
  deriving DecidableEq, Repr

/-- The name the opcode table gives the operation. -/
def Instr.mnemonic : Instr → String
  | .rdStart _ => "RD.START"
  | .rdData1 _ => "RD.DATA1"
  | .rdData2 _ => "RD.DATA2"
  | .rdData3 _ => "RD.DATA3"
  | .rdData4 _ => "RD.DATA4"
  | .rdData5 _ => "RD.DATA5"
  | .rdData6 _ => "RD.DATA6"
  | .rdData7 _ => "RD.DATA7"
  | .rdData8 _ => "RD.DATA8"
  | .rdParity _ => "RD.PARITY"
  | .rdStop _ => "RD.STOP"
  | .wrStart _ => "WR.START"
  | .wrData1 _ => "WR.DATA1"
  | .wrData2 _ => "WR.DATA2"
  | .wrData3 _ => "WR.DATA3"
  | .wrData4 _ => "WR.DATA4"
  | .wrData5 _ => "WR.DATA5"
  | .wrData6 _ => "WR.DATA6"
  | .wrData7 _ => "WR.DATA7"
  | .wrData8 _ => "WR.DATA8"
  | .wrParity _ => "WR.PARITY"
  | .wrStop _ => "WR.STOP"
  | .wrAck _ => "WR.ACK"
  | .toRead => "TO.READ"
  | .toWrite => "TO.WRITE"
  | .toInhibit => "TO.INHIBIT"
  | .hWrite _ => "H.WRITE"
  | .hCollect => "H.COLLECT"
  | .reset => "RESET"
  | .tick _ _ => "TICK"
  | .hConfigure _ => "H.CONFIGURE"
  | .hEnableCb => "H.ENABLECB"
  | .hDisableCb => "H.DISABLECB"
  | .hRead => "H.READ"

end Sys2Proof
end

