-- ==== Sys2Proof/Decode.lean ====
section
/-! DEFINITION. The event word (30_encoding.md R96 to R101): its fields, the decoder, total on every word and rejecting by name,
the encoder, and the opcode table as rows of match and mask. -/

namespace Sys2Proof

/-- Why a word is no operation (30_encoding.md R101: the reserved event words). -/
inductive Reject where
  | reservedKind
  | reservedReadSlot
  | reservedWriteSlot
  deriving DecidableEq, Repr

namespace EventWord

/-- `W[16:13]`. -/
def kind (w : EventWord) : BitVec 4 := w.extractLsb' 13 4

/-- `W[12]`: 0 Read, 1 Write. -/
def mode (w : EventWord) : Mode := if w.getLsbD 12 then .write else .read

/-- `W[11:8]`. -/
def slot (w : EventWord) : Slot := w.extractLsb' 8 4

/-- `W[7:0]`. -/
def operand (w : EventWord) : Byte := w.extractLsb' 0 8

/-- `W[12]` of a mode. -/
def modeBit (m : Mode) : Bool :=
  match m with
  | .read => false
  | .write => true

/-- The word with the given fields (R96). -/
def make (kind : BitVec 4) (mode : Mode) (slot : Slot) (operand : Byte) : EventWord :=
  (kind.zeroExtend 17 <<< 13) ||| ((BitVec.ofBool (modeBit mode)).zeroExtend 17 <<< 12) ||| (slot.zeroExtend 17 <<< 8) |||
    operand.zeroExtend 17

end EventWord

/-- The operation an EDGE event selects: the pair (mode, slot) names it (R98, R100); slots past the frame's last are
reserved (R101). -/
def edgeInstr (m : Mode) (k : Slot) (d : Level) : Except Reject Instr :=
  match m with
  | .read =>
    match k.toNat with
    | 0 => .ok (.rdStart d)
    | 1 => .ok (.rdData1 d)
    | 2 => .ok (.rdData2 d)
    | 3 => .ok (.rdData3 d)
    | 4 => .ok (.rdData4 d)
    | 5 => .ok (.rdData5 d)
    | 6 => .ok (.rdData6 d)
    | 7 => .ok (.rdData7 d)
    | 8 => .ok (.rdData8 d)
    | 9 => .ok (.rdParity d)
    | 10 => .ok (.rdStop d)
    | _ => .error .reservedReadSlot
  | .write =>
    match k.toNat with
    | 0 => .ok (.wrStart d)
    | 1 => .ok (.wrData1 d)
    | 2 => .ok (.wrData2 d)
    | 3 => .ok (.wrData3 d)
    | 4 => .ok (.wrData4 d)
    | 5 => .ok (.wrData5 d)
    | 6 => .ok (.wrData6 d)
    | 7 => .ok (.wrData7 d)
    | 8 => .ok (.wrData8 d)
    | 9 => .ok (.wrParity d)
    | 10 => .ok (.wrStop d)
    | 11 => .ok (.wrAck d)
    | _ => .error .reservedWriteSlot

/-- The decoder (R97 to R101). `kind` is tested first; `mode` and `slot` are read for EDGE only (R98); operand bits a row does
not name are ignored, as the table's masks ignore them (log entry 10). -/
def decodeWord (w : EventWord) : Except Reject Instr :=
  let o := EventWord.operand w
  match (EventWord.kind w).toNat with
  | 0 => edgeInstr (EventWord.mode w) (EventWord.slot w) (o.getLsbD 0)
  | 1 => .ok .toRead
  | 2 => .ok .toWrite
  | 3 => .ok .toInhibit
  | 4 => .ok (.hWrite o)
  | 5 => .ok .hCollect
  | 6 => .ok .reset
  | 7 => .ok (.tick (o.getLsbD 0) (o.getLsbD 1))
  | 8 => .ok (.hConfigure (o.getLsbD 0))
  | 9 => .ok .hEnableCb
  | 10 => .ok .hDisableCb
  | 11 => .ok .hRead
  | _ => .error .reservedKind

/-- The event word of a number whose bits above bit 16 are 0: the form in which spec/opcode_table.json numbers a row's bits. -/
def wordOfNat (n : Nat) : Option EventWord :=
  if n < 2 ^ 17 then some (BitVec.ofNat 17 n) else none

/-- What the decoder reads from a row's bits `w`, numbered as spec/opcode_table.json numbers them; bits from `nbits` up are 0.
An event word has 17 bits, so a number with a higher bit set is no event word. -/
def decodeTableWord (nbits w : Nat) : Option Instr :=
  match wordOfNat (w % 2 ^ nbits) with
  | none => none
  | some v =>
    match decodeWord v with
    | .ok i => some i
    | .error _ => none

/-! ### The encoder, written from the table's `match` column -/

/-- A row's `match` value with the operand in `W[7:0]`. -/
def tableWord (value : EventWord) (operand : Byte) : EventWord :=
  value ||| operand.zeroExtend 17

/-- A one-bit operand in bit 0. -/
def bitOperand (d : Level) : Byte := if d then 0x01#8 else 0x00#8

/-- The operand of TICK: `scl_dev` in bit 0, `sda_dev` in bit 1 (R99). -/
def tickOperand (c d : Level) : Byte := (if c then 0x01#8 else 0x00#8) ||| (if d then 0x02#8 else 0x00#8)

/-- The event word of an operation, its unused fields 0 (95_test_vectors.md shows them so). -/
def encode : Instr → EventWord
  | .rdStart d => tableWord 0x00000#17 (bitOperand d)
  | .rdData1 d => tableWord 0x00100#17 (bitOperand d)
  | .rdData2 d => tableWord 0x00200#17 (bitOperand d)
  | .rdData3 d => tableWord 0x00300#17 (bitOperand d)
  | .rdData4 d => tableWord 0x00400#17 (bitOperand d)
  | .rdData5 d => tableWord 0x00500#17 (bitOperand d)
  | .rdData6 d => tableWord 0x00600#17 (bitOperand d)
  | .rdData7 d => tableWord 0x00700#17 (bitOperand d)
  | .rdData8 d => tableWord 0x00800#17 (bitOperand d)
  | .rdParity d => tableWord 0x00900#17 (bitOperand d)
  | .rdStop d => tableWord 0x00A00#17 (bitOperand d)
  | .wrStart d => tableWord 0x01000#17 (bitOperand d)
  | .wrData1 d => tableWord 0x01100#17 (bitOperand d)
  | .wrData2 d => tableWord 0x01200#17 (bitOperand d)
  | .wrData3 d => tableWord 0x01300#17 (bitOperand d)
  | .wrData4 d => tableWord 0x01400#17 (bitOperand d)
  | .wrData5 d => tableWord 0x01500#17 (bitOperand d)
  | .wrData6 d => tableWord 0x01600#17 (bitOperand d)
  | .wrData7 d => tableWord 0x01700#17 (bitOperand d)
  | .wrData8 d => tableWord 0x01800#17 (bitOperand d)
  | .wrParity d => tableWord 0x01900#17 (bitOperand d)
  | .wrStop d => tableWord 0x01A00#17 (bitOperand d)
  | .wrAck d => tableWord 0x01B00#17 (bitOperand d)
  | .toRead => tableWord 0x02000#17 0#8
  | .toWrite => tableWord 0x04000#17 0#8
  | .toInhibit => tableWord 0x06000#17 0#8
  | .hWrite b => tableWord 0x08000#17 b
  | .hCollect => tableWord 0x0A000#17 0#8
  | .reset => tableWord 0x0C000#17 0#8
  | .tick c d => tableWord 0x0E000#17 (tickOperand c d)
  | .hConfigure p => tableWord 0x10000#17 (bitOperand p)
  | .hEnableCb => tableWord 0x12000#17 0#8
  | .hDisableCb => tableWord 0x14000#17 0#8
  | .hRead => tableWord 0x16000#17 0#8

/-! ### The opcode table -/

/-- One row of spec/opcode_table.json: mnemonic, `match`, `mask`. -/
structure Row where
  mnemonic : String
  value : EventWord
  mask : EventWord
  deriving DecidableEq, Repr

/-- A word matches a row when it agrees with `value` on the bits of `mask`. -/
def Row.covers (r : Row) (w : EventWord) : Bool := (w &&& r.mask) == r.value

/-- The 23 rows of format EDGE, read side then write side. -/
def edgeRows : List Row :=
  [⟨"RD.START", 0x00000#17, 0x1FF00#17⟩, ⟨"RD.DATA1", 0x00100#17, 0x1FF00#17⟩,
   ⟨"RD.DATA2", 0x00200#17, 0x1FF00#17⟩, ⟨"RD.DATA3", 0x00300#17, 0x1FF00#17⟩,
   ⟨"RD.DATA4", 0x00400#17, 0x1FF00#17⟩, ⟨"RD.DATA5", 0x00500#17, 0x1FF00#17⟩,
   ⟨"RD.DATA6", 0x00600#17, 0x1FF00#17⟩, ⟨"RD.DATA7", 0x00700#17, 0x1FF00#17⟩,
   ⟨"RD.DATA8", 0x00800#17, 0x1FF00#17⟩, ⟨"RD.PARITY", 0x00900#17, 0x1FF00#17⟩,
   ⟨"RD.STOP", 0x00A00#17, 0x1FF00#17⟩] ++
  [⟨"WR.START", 0x01000#17, 0x1FF00#17⟩, ⟨"WR.DATA1", 0x01100#17, 0x1FF00#17⟩,
   ⟨"WR.DATA2", 0x01200#17, 0x1FF00#17⟩, ⟨"WR.DATA3", 0x01300#17, 0x1FF00#17⟩,
   ⟨"WR.DATA4", 0x01400#17, 0x1FF00#17⟩, ⟨"WR.DATA5", 0x01500#17, 0x1FF00#17⟩,
   ⟨"WR.DATA6", 0x01600#17, 0x1FF00#17⟩, ⟨"WR.DATA7", 0x01700#17, 0x1FF00#17⟩,
   ⟨"WR.DATA8", 0x01800#17, 0x1FF00#17⟩, ⟨"WR.PARITY", 0x01900#17, 0x1FF00#17⟩,
   ⟨"WR.STOP", 0x01A00#17, 0x1FF00#17⟩, ⟨"WR.ACK", 0x01B00#17, 0x1FF00#17⟩]

/-- The 11 rows of the formats DEADLINE, HOST, RESET and TICK. -/
def kindRows : List Row :=
  [⟨"TO.READ", 0x02000#17, 0x1E000#17⟩, ⟨"TO.WRITE", 0x04000#17, 0x1E000#17⟩,
   ⟨"TO.INHIBIT", 0x06000#17, 0x1E000#17⟩, ⟨"H.WRITE", 0x08000#17, 0x1E000#17⟩,
   ⟨"H.COLLECT", 0x0A000#17, 0x1E000#17⟩, ⟨"RESET", 0x0C000#17, 0x1E000#17⟩,
   ⟨"TICK", 0x0E000#17, 0x1E000#17⟩, ⟨"H.CONFIGURE", 0x10000#17, 0x1E000#17⟩,
   ⟨"H.ENABLECB", 0x12000#17, 0x1E000#17⟩, ⟨"H.DISABLECB", 0x14000#17, 0x1E000#17⟩,
   ⟨"H.READ", 0x16000#17, 0x1E000#17⟩]

/-- The opcode table (R100). -/
def opcodeTable : List Row := edgeRows ++ kindRows

end Sys2Proof
end

