-- ==== Sys2Proof/Machine/State.lean ====
section
/-! DEFINITION. The state of the block (10_state.md R20), its host boundary (44_host_boundary.md R233), its inputs and outputs
(10_state.md R38, R39) and its value after reset (10_state.md R42, 70_reset_and_hazards.md R300). Plain data. -/

namespace Sys2Proof.Machine

/-- The three one-shot deadlines (10_state.md R35). -/
inductive Deadline where
  | read
  | write
  | inhibit
  deriving DecidableEq, Repr

/-- The registered callback (44_host_boundary.md R233); callbacks are not told apart (R232). -/
inductive Callback where
  | absent
  | present
  deriving DecidableEq, Repr

/-- How a write ends (42_write_frame.md R190). -/
inductive Completion where
  | success
  | failure
  deriving DecidableEq, Repr

/-- The error kinds (60_exceptions.md R261). -/
inductive ErrorKind where
  | busy
  | timeout
  | invalidStartBit
  | invalidParity
  | invalidStopBit
  | ackFailure
  | allocationFailure
  | invalidArgument
  deriving DecidableEq, Repr

/-- A host command, at most one of which accompanies a tick (40_edge_dispatch.md R126, D20). -/
inductive HostCmd where
  | write (b : Byte)
  | collect
  | configure (p : Bool)
  | enableCb
  | disableCb
  | read
  deriving DecidableEq, Repr

/-- What a host operation returns (42_write_frame.md R170, 44_host_boundary.md R230, R232, R236). -/
inductive HostResult where
  | accepted
  | busy
  | blocked
  | status (st : WrStatus)
  | ok
  | invalidArgument
  | empty
  | byte (b : Byte)
  deriving DecidableEq, Repr

/-- The output events (10_state.md R39, 44_host_boundary.md R233). -/
inductive Output where
  | rx (b : Byte)
  | cb (b : Byte)
  | done (c : Completion)
  /-- `ERR(code, mode, slot)` (60_exceptions.md R262). -/
  | err (k : ErrorKind) (m : Mode) (slot : Slot)
  | result (r : HostResult)
  deriving DecidableEq, Repr

/-- One input event: the fields of the event word that come from the event (30_encoding.md R96) and, for a TICK, the two inputs
that accompany it (10_state.md R38). -/
structure Event where
  kind : BitVec 4
  operand : Byte
  host : Option HostCmd
  reset : Bool
  deriving DecidableEq, Repr

/-- The whole state. -/
structure State where
  /-- `mode` (R28). -/
  mode : Mode
  /-- `rd_acc`, the read accumulator (R21). -/
  rdAcc : Byte
  /-- `rd_pos`, the slot of the next edge in Read mode (R25). -/
  rdPos : Slot
  /-- `wr_byte`, the byte being written (R22). -/
  wrByte : Byte
  /-- `wr_pos`, the slot of the next edge in Write mode (R26). -/
  wrPos : Slot
  /-- `wr_status` (R29). -/
  wrStatus : WrStatus
  /-- `lock`, true is the count 1 (R30). -/
  lock : Bool
  /-- `irq_en` (R31). -/
  irqEn : Bool
  /-- `scl_dir` (R32). -/
  sclDir : Dir
  /-- `sda_dir` (R32). -/
  sdaDir : Dir
  /-- `scl_out` (R33). -/
  sclOut : Level
  /-- `sda_out` (R33). -/
  sdaOut : Level
  /-- `scl_prev`, the resolved SCL level at the previous tick (R34). -/
  sclPrev : Level
  /-- `dl_read` (R35): `none` or the ticks that remain. -/
  dlRead : Option Nat
  /-- `dl_write` (R35). -/
  dlWrite : Option Nat
  /-- `dl_inhibit` (R35). -/
  dlInhibit : Option Nat
  /-- `resend_cnt` (R36). -/
  resendCnt : Nat
  /-- `cb` (44_host_boundary.md R233). -/
  cb : Callback
  /-- `cb_enabled` (R233). -/
  cbEnabled : Bool
  /-- The Byte Queue, head first (R233). -/
  queue : List Byte
  /-- The parameters of this instance (00_scope.md R10); no operation writes them (log entry 1). -/
  par : Params
  /-- Input events not yet handled, oldest first (log entry 2). -/
  events : List Event
  /-- The host command input of the current tick (log entry 5). -/
  portHost : Option HostCmd
  /-- The input `reset` of the current tick (log entry 5). -/
  portReset : Bool
  /-- Output events so far, oldest first (log entry 4). -/
  outs : List Output
  /-- Outcomes of `Alloc()` supplied in advance, next first (log entry 7). -/
  allocDraws : List Bool
  /-- How many draws were answered by the free value `Config.freeAlloc` (log entry 7). -/
  allocCnt : Nat
  deriving DecidableEq, Repr

/-- Why the machine stops: the situations for which the spec says `fault` (00_scope.md R17). Each is safe: the machine does not
go on, so nothing is claimed of what would follow. -/
inductive Fault where
  /-- Raised by `step` on an event of kind 12 to 15 (30_encoding.md R101). Safe. -/
  | reservedKind
  /-- Raised by the edge dispatch in Read mode with `rd_pos` ≥ 11 (41_read_frame.md R159). Safe. -/
  | reservedReadSlot
  /-- Raised by the edge dispatch in Write mode with `wr_pos` ≥ 12 (42_write_frame.md R193). Safe. -/
  | reservedWriteSlot
  /-- Raised by TO.READ when `dl_read` fires in Write mode (43_timeouts.md R213). Safe. -/
  | readDeadlineInWriteMode
  /-- Raised by TO.WRITE when `dl_write` fires in Read mode (D19). Safe. -/
  | writeDeadlineInReadMode
  /-- Raised by TO.INHIBIT when `dl_inhibit` fires outside the inhibition hold (42_write_frame.md R176). Safe. -/
  | inhibitDeadlineOutsideHold
  deriving DecidableEq, Repr

/-- Why an operation has no meaning in a state. Each is safe: nothing is claimed of what would follow. -/
inductive Refusal where
  /-- Raised by an arm of `exec` whose operation has no meaning yet. Safe. -/
  | notModelled (mnemonic : String)
  /-- Raised by an edge operation in a state whose (mode, position) selects another one (R123; log entry 8): `step` never forms
  such an event word. Safe. -/
  | notEnabled
  /-- Raised by TO.READ, TO.WRITE and TO.INHIBIT when their deadline is not armed: "not a legal event"
  (93_implementation_defined.md U13). Safe. -/
  | deadlineNotArmed
  deriving DecidableEq, Repr

/-- The outcome of an operation. -/
abbrev Out := Host.Outcome State Fault Refusal

/-- The machine after reset: the reset column of R20 (R42, R300), the host boundary of R233, the default parameters of R10, and
nothing yet put in or out (log entry 6). -/
def State.reset : State where
  mode := .read
  rdAcc := 0x00#8
  rdPos := 0#4
  wrByte := 0x00#8
  wrPos := 0#4
  wrStatus := .inactive
  lock := false
  irqEn := true
  sclDir := .input
  sdaDir := .input
  sclOut := true
  sdaOut := true
  sclPrev := true
  dlRead := none
  dlWrite := none
  dlInhibit := none
  resendCnt := 0
  cb := .absent
  cbEnabled := false
  queue := []
  par := Params.default
  events := []
  portHost := none
  portReset := false
  outs := []
  allocDraws := []
  allocCnt := 0

end Sys2Proof.Machine
end

