-- ==== Sys2Proof/Machine/Operands.lean ====
section
/-! DEFINITION. Operand forms: the data bit of a slot (30_encoding.md R95), the operand field of each kind (R99), frame words (R93), and
the numeric codes of the enumerations (R106). -/

namespace Sys2Proof.Machine

/-- The byte with bit `j` assigned to `d` and the others kept: `(v AND NOT (1 << j)) OR (zext_8(d) << j)` (R95). -/
def insertBit (v : Byte) (j : Nat) (d : Level) : Byte :=
  (v &&& ~~~(1#8 <<< j)) ||| ((BitVec.ofBool d).zeroExtend 8 <<< j)

/-- `v[j]` (00_scope.md R12). -/
def bitOf (v : Byte) (j : Nat) : Level := v.getLsbD j

/-- The operand of EDGE: the sampled SDA level in bit 0 (R99). -/
def edgeOperand (d : Level) : Byte := bitOperand d

/-- `sext_8` of a field of `n` bits, defined by R12 for the notation and used by no rule. -/
def sext8 {n : Nat} (v : BitVec n) : Byte := v.signExtend 8

/-- `zext_8` (R12). -/
def zext8 {n : Nat} (v : BitVec n) : Byte := v.zeroExtend 8

/-- The code of a mode (R106). -/
def modeCode : Mode → BitVec 1
  | .read => 0#1
  | .write => 1#1

/-- The code of a write status (R106). -/
def statusCode : WrStatus → BitVec 2
  | .inactive => 0#2
  | .active => 1#2
  | .success => 2#2
  | .failure => 3#2

/-- The code of a direction (R106). -/
def dirCode : Dir → BitVec 1
  | .input => 0#1
  | .output => 1#1

/-- The address of a line (R106, 20_memory.md R60). -/
def lineAddr : Line → Nat
  | .scl => 0
  | .sda => 1

/-- The line at an address; nothing else is mapped (20_memory.md R64). -/
def lineAt : Nat → Option Line
  | 0 => some .scl
  | 1 => some .sda
  | _ => none

/-- The code of an error kind; 0 is no error (60_exceptions.md R261). -/
def errorCode : ErrorKind → BitVec 4
  | .busy => 1#4
  | .timeout => 2#4
  | .invalidStartBit => 3#4
  | .invalidParity => 4#4
  | .invalidStopBit => 5#4
  | .ackFailure => 6#4
  | .allocationFailure => 7#4
  | .invalidArgument => 8#4

/-- The status a completion leaves in `wr_status` (42_write_frame.md R190). -/
def completionStatus : Completion → WrStatus
  | .success => .success
  | .failure => .failure

end Sys2Proof.Machine
end

