-- ==== Sys2Proof/Machine/Flags.lean ====
section
/-! DEFINITION. The flag computations: parity (00_scope.md R16, 30_encoding.md R94), the falling edge (40_edge_dispatch.md R120), frame
words (30_encoding.md R93), and the wired-AND of a line (20_memory.md R61, R62). -/

namespace Sys2Proof.Machine

/-- `par8(v)`, the XOR of the eight bits (R16). -/
def par8 (v : Byte) : Bool :=
  bitOf v 0 ^^ bitOf v 1 ^^ bitOf v 2 ^^ bitOf v 3 ^^ bitOf v 4 ^^ bitOf v 5 ^^ bitOf v 6 ^^ bitOf v 7

/-- `P(v) = 1 - par8(v)`, the parity bit that goes on the wire (R16, R94). -/
def wireParity (v : Byte) : Level := !par8 v

/-- `fall = (scl_prev = 1) AND (scl_now = 0)` (R120). -/
def fallingEdge (prev now : Level) : Bool := prev && !now

/-- `RF(b) = {1, P(b), b[7:0], 0}`, bit `i` the level of slot `i` (R93). -/
def readFrameWord (b : Byte) : BitVec 11 :=
  (1#11 <<< 10) ||| ((BitVec.ofBool (wireParity b)).zeroExtend 11 <<< 9) ||| (b.zeroExtend 11 <<< 1)

/-- `WF(b, a) = {a, 1, P(b), b[7:0], 0}`, `a` the Ack level (R93). -/
def writeFrameWord (b : Byte) (a : Level) : BitVec 12 :=
  ((BitVec.ofBool a).zeroExtend 12 <<< 11) ||| (readFrameWord b).zeroExtend 12

/-- What the block contributes to a line: its latch when it drives the line, else 1 (R61). -/
def driveLevel (dir : Dir) (out : Level) : Level :=
  match dir with
  | .input => true
  | .output => out

/-- The resolved level of a line: open collector, so either side can pull it low (R62). -/
def wiredAnd (dev drive : Level) : Level := dev && drive

/-- One count of a deadline counter in phase 1 of a tick (R126): `some n` with `n > 0` becomes `some (n - 1)`. -/
def countDown (d : Option Nat) : Option Nat :=
  match d with
  | none => none
  | some 0 => some 0
  | some (n + 1) => some n

end Sys2Proof.Machine
end

