-- ==== Sys2Proof/Machine/Ops.lean ====
section
/-! DEFINITION. The named operations over the state: register aliases (00_scope.md R13), line and deadline primitives (R14, R15), output
events and errors (R17, 60_exceptions.md R262), the shared sequences of the read side (41_read_frame.md section 3), the write side
(42_write_frame.md) and the host boundary (44_host_boundary.md). Taking an error is `raise` followed by `abortNoResend`,
`abortResend` or `finish` (60_exceptions.md R277); return from one is the `H.WRITE(0xFE)` inside `abortResend` (R279). -/

namespace Sys2Proof.Machine

/-! ### Sequencing outcomes -/

/-- Run `f` on the next state; a fault or a refusal ends the operation. -/
def andThen (o : Out) (f : State → Out) : Out :=
  match o with
  | .next s => f s
  | .fault r => .fault r
  | .refused r => .refused r

/-! ### Register aliases (R13) -/

/-- `pc`: the position register of the current mode. -/
def State.pc (s : State) : Slot :=
  match s.mode with
  | .read => s.rdPos
  | .write => s.wrPos

/-- `pc <- k`. -/
def State.setPc (s : State) (k : Slot) : State :=
  match s.mode with
  | .read => { s with rdPos := k }
  | .write => { s with wrPos := k }

/-- `x[0]` is `rd_acc`, `x[1]` is `wr_byte`. -/
def State.x (s : State) (i : Fin 2) : Byte :=
  match i with
  | 0 => s.rdAcc
  | 1 => s.wrByte

/-- `x[i] <- v`. -/
def State.setX (s : State) (i : Fin 2) (v : Byte) : State :=
  match i with
  | 0 => { s with rdAcc := v }
  | 1 => { s with wrByte := v }

/-! ### Output events (R17, R262) -/

/-- Emit one output event. -/
def State.emit (s : State) (o : Output) : State := { s with outs := s.outs ++ [o] }

/-- `raise k`: one ERR with `mode` and the position as they are before the operation changes them (R262). -/
def State.raise (s : State) (k : ErrorKind) : State := s.emit (.err k s.mode s.pc)

/-! ### Deadlines (R15) -/

/-- The counter of a deadline. -/
def State.deadline (s : State) : Deadline → Option Nat
  | .read => s.dlRead
  | .write => s.dlWrite
  | .inhibit => s.dlInhibit

/-- Set the counter of a deadline. -/
def State.setDeadline (s : State) (d : Deadline) (v : Option Nat) : State :=
  match d with
  | .read => { s with dlRead := v }
  | .write => { s with dlWrite := v }
  | .inhibit => { s with dlInhibit := v }

/-- `Arm(d, n)`: armed with `n` ticks remaining, replacing any earlier setting. -/
def State.arm (s : State) (d : Deadline) (n : Nat) : State := s.setDeadline d (some n)

/-- `Cancel(d)`: disarmed. -/
def State.cancel (s : State) (d : Deadline) : State := s.setDeadline d none

/-! ### Lines (R14, 20_memory.md R60 to R64) -/

/-- The direction of a line. -/
def State.dir (s : State) : Line → Dir
  | .scl => s.sclDir
  | .sda => s.sdaDir

/-- The output latch of a line. -/
def State.latch (s : State) : Line → Level
  | .scl => s.sclOut
  | .sda => s.sdaOut

/-- `LineWrite(l, v)` is `l_out <- v`. -/
def State.lineWrite (s : State) (l : Line) (v : Level) : State :=
  match l with
  | .scl => { s with sclOut := v }
  | .sda => { s with sdaOut := v }

/-- `LineDir(l, d)` is `l_dir <- d`. -/
def State.lineDir (s : State) (l : Line) (d : Dir) : State :=
  match l with
  | .scl => { s with sclDir := d }
  | .sda => { s with sdaDir := d }

/-- `IrqEnable(b)` is `irq_en <- b`. -/
def State.irqEnable (s : State) (b : Bool) : State := { s with irqEn := b }

/-- `drive(l)`, the block's contribution to a line (20_memory.md R61). -/
def State.drive (s : State) (l : Line) : Level := driveLevel (s.dir l) (s.latch l)

/-- `LineRead(l)`, the resolved level while the device puts `dev` on the line (20_memory.md R62). -/
def State.lineRead (s : State) (l : Line) (dev : Level) : Level := wiredAnd dev (s.drive l)

/-- `MemRead(addr, 1)` over the line space (R14); no other address exists (20_memory.md R64). -/
def State.memRead (s : State) (addr : Nat) (dev : Line → Level) : Option Level :=
  match lineAt addr with
  | none => none
  | some l => some (s.lineRead l (dev l))

/-- `MemWrite(addr, 1, v)` over the line space (R14). -/
def State.memWrite (s : State) (addr : Nat) (v : Level) : Option State :=
  match lineAt addr with
  | none => none
  | some l => some (s.lineWrite l v)

/-- The levels a host may read without side effect: `mode`, `wr_status`, `lock` (10_state.md R39, 20_memory.md R69). -/
def State.hostLevels (s : State) : Mode × WrStatus × Bool := (s.mode, s.wrStatus, s.lock)

/-! ### The lock (20_memory.md R75) -/

/-- Try-take, never blocking: 1 becomes 0, 0 stays 0. -/
def State.tryTake (s : State) : State := if s.lock then { s with lock := false } else s

/-- Give, saturating. -/
def State.give (s : State) : State := { s with lock := true }

/-! ### The read side (41_read_frame.md section 3) -/

/-- `ReadReset` (R153). -/
def readReset (s : State) : State :=
  State.cancel { s with rdPos := 0#4, rdAcc := 0x00#8 } .read

/-- `AbortNoResend` (R155). -/
def abortNoResend (s : State) : State := readReset s

/-- The body of an accepting read edge's epilogue: `rd_pos <- rd_pos + 1; Arm(dl_read, T_READ_BIT)` (R140). -/
def readEpilogue (s : State) : State :=
  State.arm { s with rdPos := s.rdPos + 1#4 } .read s.par.tReadBit

/-- `ResendAllowed` (R157). -/
def resendAllowed (s : State) : Bool :=
  match s.par.resendMax with
  | none => true
  | some m => s.resendCnt < m

/-- `resend_cnt <- resend_cnt + 1` in an instance with finite RESEND_MAX (R157). -/
def countResend (s : State) : State :=
  match s.par.resendMax with
  | none => s
  | some _ => { s with resendCnt := s.resendCnt + 1 }

/-- `resend_cnt <- 0` in an instance with finite RESEND_MAX (R152, R157). -/
def clearResend (s : State) : State :=
  match s.par.resendMax with
  | none => s
  | some _ => { s with resendCnt := 0 }

/-! ### The write side (42_write_frame.md) -/

/-- Line seizure, the inhibit signal: step 4 of R170 (R173). -/
def seizeLines (s : State) : State :=
  ((((s.lineDir .scl .output).lineDir .sda .output).irqEnable false).lineWrite .scl false).lineWrite .sda true

/-- Steps 2 to 5 of R170: what an admitted `H.WRITE(b)` does. -/
def admitWrite (b : Byte) (s : State) : State :=
  let s := s.tryTake
  let s := { s with mode := .write, wrPos := 0#4, wrByte := b, wrStatus := .active }
  let s := abortNoResend s
  let s := seizeLines s
  s.arm .inhibit s.par.tInhibit

/-- `H.WRITE(b)` with its admission check (R170, R171): the state and the result it returns. -/
def initiateWrite (b : Byte) (s : State) : State × HostResult :=
  match s.mode with
  | .write => (s.raise .busy, .busy)
  | .read => (admitWrite b s, .accepted)

/-- `AbortResend` (R156): reset the read side, then, where a resend is allowed, `H.WRITE(RESEND_BYTE)` in the same step; no host
is there to receive its result. -/
def abortResend (s : State) : State :=
  let s := readReset s
  if resendAllowed s then (initiateWrite s.par.resendByte (countResend s)).1 else s

/-- `Finish(c)` (R190). -/
def finish (c : Completion) (s : State) : State :=
  let s := s.cancel .write
  let s := { s with wrStatus := completionStatus c, mode := .read, rdPos := 0#4, wrPos := 0#4 }
  let s := (s.lineDir .scl .input).lineDir .sda .input
  s.give.emit (.done c)

/-- The epilogue of a write edge: `wr_pos <- wr_pos + 1; Arm(dl_write, T_WRITE_BIT)` (R177). -/
def writeEpilogue (s : State) : State :=
  State.arm { s with wrPos := s.wrPos + 1#4 } .write s.par.tWriteBit

/-! ### The host boundary (44_host_boundary.md) -/

/-- `Flush` (R238). -/
def flush (s : State) : State := { s with queue := [] }

/-- `Alloc()` (R237): false at a finite QUEUE_CAP, else the next supplied outcome, else a free value (log entry 7). -/
def alloc (s : State) : Bool × State :=
  if s.par.queueCap = some s.queue.length then (false, s)
  else
    match s.allocDraws with
    | a :: rest => (a, { s with allocDraws := rest })
    | [] => (Config.freeAlloc s.allocCnt, { s with allocCnt := s.allocCnt + 1 })

/-- `QueueAdd(b)` (R237): on a failed allocation purge and retry once; if that fails, drop the byte and report. -/
def queueAdd (b : Byte) (s : State) : State :=
  let (a₁, s₁) := alloc s
  if a₁ then { s₁ with queue := s₁.queue ++ [b] }
  else
    let (a₂, s₂) := alloc (flush s₁)
    if a₂ then { s₂ with queue := [b] } else s₂.raise .allocationFailure

/-- `Deliver(b)` (R233): to the callback if one is registered and delivery is enabled, else to the queue. -/
def deliver (b : Byte) (s : State) : State :=
  if s.cb = .present ∧ s.cbEnabled = true then s.emit (.cb b) else queueAdd b s

/-- `Finalize` (R152) with the routing of `RX(b)` (R233). -/
def finalize (s : State) : State :=
  let b := s.rdAcc
  deliver b ((clearResend (readReset s)).emit (.rx b))

/-! ### Reset (70_reset_and_hazards.md R300) -/

/-- Every register of R20 and the host boundary at its reset value. The parameters, the inputs, the outputs and the allocator are not
registers and stay as they are; no output event is emitted. -/
def resetRegisters (s : State) : State :=
  { State.reset with
    par := s.par, events := s.events, portHost := s.portHost, portReset := s.portReset, outs := s.outs
    allocDraws := s.allocDraws, allocCnt := s.allocCnt }

/-! ### Enabling of edge operations (40_edge_dispatch.md R123) -/

/-- The operation for slot `k` of mode `m` runs only where the registers select it (R123; log entry 8). -/
def atSlot (m : Mode) (k : Slot) (f : State → State) (s : State) : Out :=
  if s.mode = m ∧ s.pc = k then .next (f s) else .refused .notEnabled

/-! ### Events (30_encoding.md R96, R101) -/

/-- The event word the dispatch forms: `kind` and `operand` from the event, `mode` and `slot` from the registers (R96). -/
def formWord (e : Event) (s : State) : EventWord :=
  EventWord.make e.kind s.mode s.pc e.operand

/-- The fault of a reserved word (R101). -/
def faultOf : Reject → Fault
  | .reservedKind => .reservedKind
  | .reservedReadSlot => .reservedReadSlot
  | .reservedWriteSlot => .reservedWriteSlot

/-- The event of a word, without host command and with `reset` not asserted. -/
def eventOfWord (w : EventWord) : Event :=
  ⟨EventWord.kind w, EventWord.operand w, none, false⟩

/-- Take the event off the input and put what accompanies it on the ports. -/
def loadEvent (e : Event) (rest : List Event) (s : State) : State :=
  { s with events := rest, portHost := e.host, portReset := e.reset }

/-- Make `w` the next event the block handles (log entry 3): the event comes first in the input; an EDGE word selects its operation
through `mode` and the position, so these are set from the word; a deadline event exists only while its deadline is armed, in the
mode (and slot) it belongs to, so these are set. -/
def placeWord (w : EventWord) (s : State) : State :=
  let s := { s with events := eventOfWord w :: s.events }
  match (EventWord.kind w).toNat with
  | 0 => State.setPc { s with mode := EventWord.mode w } (EventWord.slot w)
  | 1 => State.arm { s with mode := .read } .read 0
  | 2 => State.arm { s with mode := .write } .write 0
  | 3 => State.arm { s with mode := .write, wrPos := 0#4 } .inhibit 0
  | _ => s

end Sys2Proof.Machine
end

