-- ==== Sys2Proof/Machine/WriteFrame.lean ====
section
/-! DEFINITION. `H.WRITE`, `TO.INHIBIT` and the twelve write edge operations (42_write_frame.md R170, R176 to R189). -/

namespace Sys2Proof.Machine

/-- `H.WRITE` (R170): the state of `initiateWrite`, then the result to the host. -/
def execHWrite (b : Byte) (s : State) : Out :=
  let r := initiateWrite b s
  .next (r.1.emit (.result r.2))

/-- What `TO.INHIBIT` does in the inhibition hold (R176). -/
def releaseClock (s : State) : State :=
  let s := (s.setDeadline .inhibit none).irqEnable true
  let s := s.lineWrite .sda false
  let s := { s with wrPos := 1#4 }
  let s := (s.lineWrite .scl true).lineDir .scl .input
  s.arm .write s.par.tWriteFirst

/-- `TO.INHIBIT` (R176): not an event while `dl_inhibit` is not armed (U13), a fault outside the hold (D19). -/
def execToInhibit (s : State) : Out :=
  match s.dlInhibit with
  | none => .refused .deadlineNotArmed
  | some _ =>
    if s.mode = .write ∧ s.wrPos = 0#4 then .next (releaseClock s) else .fault .inhibitDeadlineOutsideHold

/-- A slot in which the block drives SDA to `level` and goes on (R177). -/
def writeDriveSlot (level : Level) (s : State) : State :=
  writeEpilogue ((s.cancel .write).lineWrite .sda level)

/-- A data slot: drive bit `j` of `wr_byte` (R177, R95). -/
def writeDataSlot (j : Nat) (s : State) : State := writeDriveSlot (bitOf s.wrByte j) s

/-- The Stop slot: drive 1 and switch SDA to input (R188). -/
def writeStopSlot (s : State) : State :=
  writeEpilogue (((s.cancel .write).lineWrite .sda true).lineDir .sda .input)

/-- The Ack slot (R189). -/
def writeAckSlot (d : Level) (s : State) : State :=
  let s := s.cancel .write
  if d then finish .failure (s.raise .ackFailure) else finish .success s

/-- `WR.START` (R178): `Cancel(dl_write)` and nothing else; the sampled level is not read. -/
def execWrStart (_d : Level) (s : State) : Out := atSlot .write 0#4 (fun s => s.cancel .write) s

/-- `WR.DATA1` (R179). -/
def execWrData1 (_d : Level) (s : State) : Out := atSlot .write 1#4 (writeDataSlot 0) s

/-- `WR.DATA2` (R180). -/
def execWrData2 (_d : Level) (s : State) : Out := atSlot .write 2#4 (writeDataSlot 1) s

/-- `WR.DATA3` (R181). -/
def execWrData3 (_d : Level) (s : State) : Out := atSlot .write 3#4 (writeDataSlot 2) s

/-- `WR.DATA4` (R182). -/
def execWrData4 (_d : Level) (s : State) : Out := atSlot .write 4#4 (writeDataSlot 3) s

/-- `WR.DATA5` (R183). -/
def execWrData5 (_d : Level) (s : State) : Out := atSlot .write 5#4 (writeDataSlot 4) s

/-- `WR.DATA6` (R184). -/
def execWrData6 (_d : Level) (s : State) : Out := atSlot .write 6#4 (writeDataSlot 5) s

/-- `WR.DATA7` (R185). -/
def execWrData7 (_d : Level) (s : State) : Out := atSlot .write 7#4 (writeDataSlot 6) s

/-- `WR.DATA8` (R186). -/
def execWrData8 (_d : Level) (s : State) : Out := atSlot .write 8#4 (writeDataSlot 7) s

/-- `WR.PARITY` (R187): from `wr_byte`, not from the levels seen on SDA. -/
def execWrParity (_d : Level) (s : State) : Out :=
  atSlot .write 9#4 (fun s => writeDriveSlot (wireParity s.wrByte) s) s

/-- `WR.STOP` (R188). -/
def execWrStop (_d : Level) (s : State) : Out := atSlot .write 10#4 writeStopSlot s

/-- `WR.ACK` (R189). -/
def execWrAck (d : Level) (s : State) : Out := atSlot .write 11#4 (writeAckSlot d) s

end Sys2Proof.Machine
end

