-- ==== Sys2Proof/Machine/HostBoundary.lean ====
section
/-! DEFINITION. The host operations other than `H.WRITE` (44_host_boundary.md R230 to R236). -/

namespace Sys2Proof.Machine

/-- `H.COLLECT` (R230). -/
def execHCollect (s : State) : Out :=
  if s.lock then
    .next (State.emit { s with lock := false, wrStatus := .inactive } (.result (.status s.wrStatus)))
  else .next (s.emit (.result .blocked))

/-- `H.CONFIGURE` (R232). -/
def execHConfigure (p : Bool) (s : State) : Out :=
  if p then .next (State.emit { s with cb := .present } (.result .ok))
  else .next ((s.raise .invalidArgument).emit (.result .invalidArgument))

/-- `H.ENABLECB` (R234). -/
def execHEnableCb (s : State) : Out := .next { flush s with cbEnabled := true }

/-- `H.DISABLECB` (R235). -/
def execHDisableCb (s : State) : Out := .next (flush { s with cbEnabled := false })

/-- `H.READ` (R236). -/
def execHRead (s : State) : Out :=
  match s.queue with
  | [] => .next (s.emit (.result .empty))
  | b :: rest => .next (State.emit { s with queue := rest } (.result (.byte b)))

/-- The operation of a host command (phase 5 of 40_edge_dispatch.md R126). -/
def runHost (c : HostCmd) (s : State) : Out :=
  match c with
  | .write b => execHWrite b s
  | .collect => execHCollect s
  | .configure p => execHConfigure p s
  | .enableCb => execHEnableCb s
  | .disableCb => execHDisableCb s
  | .read => execHRead s

/-- The operation's name in the opcode table: a host command of a tick is a separate event word (30_encoding.md R99). -/
def HostCmd.toInstr : HostCmd → Instr
  | .write b => .hWrite b
  | .collect => .hCollect
  | .configure p => .hConfigure p
  | .enableCb => .hEnableCb
  | .disableCb => .hDisableCb
  | .read => .hRead

end Sys2Proof.Machine
end

