-- ==== Sys2Proof/Machine/ReadFrame.lean ====
section
/-! DEFINITION. The eleven read edge operations (41_read_frame.md R140 to R151). -/

namespace Sys2Proof.Machine

/-- A data slot: store the sampled level into bit `j` and go on (R140, R95). -/
def readDataSlot (j : Nat) (d : Level) (s : State) : State :=
  let s := s.cancel .read
  readEpilogue { s with rdAcc := insertBit s.rdAcc j d }

/-- The Start slot (R141). -/
def readStartSlot (d : Level) (s : State) : State :=
  let s := s.cancel .read
  if d then abortNoResend (s.raise .invalidStartBit) else readEpilogue s

/-- The Parity slot (R150). -/
def readParitySlot (d : Level) (s : State) : State :=
  let s := s.cancel .read
  if d = wireParity s.rdAcc then readEpilogue s else abortResend (s.raise .invalidParity)

/-- The Stop slot (R151). -/
def readStopSlot (d : Level) (s : State) : State :=
  let s := s.cancel .read
  if d then finalize s else abortResend (s.raise .invalidStopBit)

/-- `RD.START` (R141). -/
def execRdStart (d : Level) (s : State) : Out := atSlot .read 0#4 (readStartSlot d) s

/-- `RD.DATA1` (R142). -/
def execRdData1 (d : Level) (s : State) : Out := atSlot .read 1#4 (readDataSlot 0 d) s

/-- `RD.DATA2` (R143). -/
def execRdData2 (d : Level) (s : State) : Out := atSlot .read 2#4 (readDataSlot 1 d) s

/-- `RD.DATA3` (R144). -/
def execRdData3 (d : Level) (s : State) : Out := atSlot .read 3#4 (readDataSlot 2 d) s

/-- `RD.DATA4` (R145). -/
def execRdData4 (d : Level) (s : State) : Out := atSlot .read 4#4 (readDataSlot 3 d) s

/-- `RD.DATA5` (R146). -/
def execRdData5 (d : Level) (s : State) : Out := atSlot .read 5#4 (readDataSlot 4 d) s

/-- `RD.DATA6` (R147). -/
def execRdData6 (d : Level) (s : State) : Out := atSlot .read 6#4 (readDataSlot 5 d) s

/-- `RD.DATA7` (R148). -/
def execRdData7 (d : Level) (s : State) : Out := atSlot .read 7#4 (readDataSlot 6 d) s

/-- `RD.DATA8` (R149). -/
def execRdData8 (d : Level) (s : State) : Out := atSlot .read 8#4 (readDataSlot 7 d) s

/-- `RD.PARITY` (R150). -/
def execRdParity (d : Level) (s : State) : Out := atSlot .read 9#4 (readParitySlot d) s

/-- `RD.STOP` (R151). -/
def execRdStop (d : Level) (s : State) : Out := atSlot .read 10#4 (readStopSlot d) s

end Sys2Proof.Machine
end

