-- ==== Sys2Proof/Machine/Timeouts.lean ====
section
/-! DEFINITION. The two timeout operations (43_timeouts.md R212 to R214). -/

namespace Sys2Proof.Machine

/-- What `TO.READ` does (R213): the early window is decided on `rd_pos` before the reset. -/
def readTimeout (s : State) : State :=
  let s := (s.setDeadline .read none).raise .timeout
  if s.rdPos.toNat ≤ s.par.earlyAbortMaxPos then abortNoResend s else abortResend s

/-- `TO.READ` (R213): not an event while `dl_read` is not armed (U13), a fault in Write mode. -/
def execToRead (s : State) : Out :=
  match s.dlRead with
  | none => .refused .deadlineNotArmed
  | some _ =>
    match s.mode with
    | .read => .next (readTimeout s)
    | .write => .fault .readDeadlineInWriteMode

/-- `TO.WRITE` (R214): not an event while `dl_write` is not armed (U13), a fault in Read mode (D19). -/
def execToWrite (s : State) : Out :=
  match s.dlWrite with
  | none => .refused .deadlineNotArmed
  | some _ =>
    match s.mode with
    | .write => .next (finish .failure ((s.setDeadline .write none).raise .timeout))
    | .read => .fault .writeDeadlineInReadMode

end Sys2Proof.Machine
end

