-- ==== Sys2Proof/Machine/Tick.lean ====
section
/-! DEFINITION. The edge dispatch (40_edge_dispatch.md R123), `TICK` with its five phases (R126) and `RESET` (70_reset_and_hazards.md R300). -/

namespace Sys2Proof.Machine

/-- The edge operation an `Instr` names, for an EDGE dispatched inside a tick. `edgeInstr` gives no other operation. -/
def runEdge (i : Instr) (s : State) : Out :=
  match i with
  | .rdStart d => execRdStart d s
  | .rdData1 d => execRdData1 d s
  | .rdData2 d => execRdData2 d s
  | .rdData3 d => execRdData3 d s
  | .rdData4 d => execRdData4 d s
  | .rdData5 d => execRdData5 d s
  | .rdData6 d => execRdData6 d s
  | .rdData7 d => execRdData7 d s
  | .rdData8 d => execRdData8 d s
  | .rdParity d => execRdParity d s
  | .rdStop d => execRdStop d s
  | .wrStart d => execWrStart d s
  | .wrData1 d => execWrData1 d s
  | .wrData2 d => execWrData2 d s
  | .wrData3 d => execWrData3 d s
  | .wrData4 d => execWrData4 d s
  | .wrData5 d => execWrData5 d s
  | .wrData6 d => execWrData6 d s
  | .wrData7 d => execWrData7 d s
  | .wrData8 d => execWrData8 d s
  | .wrParity d => execWrParity d s
  | .wrStop d => execWrStop d s
  | .wrAck d => execWrAck d s
  | .toRead | .toWrite | .toInhibit | .hWrite _ | .hCollect | .reset | .tick _ _ | .hConfigure _ | .hEnableCb | .hDisableCb
  | .hRead => .refused .notEnabled

/-- `EDGE(d)` (R123): the operation for (`mode`, position), exactly one per edge; a slot past the frame is a fault. -/
def dispatchEdge (d : Level) (s : State) : Out :=
  match edgeInstr s.mode s.pc d with
  | .ok i => runEdge i s
  | .error r => .fault (faultOf r)

/-- Phase 1 of a tick: count (R126). -/
def countPhase (s : State) : State :=
  { s with dlRead := countDown s.dlRead, dlWrite := countDown s.dlWrite, dlInhibit := countDown s.dlInhibit }

/-- Phases 2 and 3: sample both lines, detect the falling edge, dispatch it if enabled (R120, R122, R123, R125). -/
def edgePhase (sclDev sdaDev : Level) (s : State) : Out :=
  let sclNow := s.lineRead .scl sclDev
  let sdaNow := s.lineRead .sda sdaDev
  let fall := fallingEdge s.sclPrev sclNow
  let en := s.irqEn
  let s := { s with sclPrev := sclNow }
  if fall && en then dispatchEdge sdaNow s else .next s

/-- Phase 4: the deadline that is due, if any (R126, R212). -/
def deadlinePhase (s : State) : Out :=
  if s.dlRead = some 0 then execToRead s
  else if s.dlWrite = some 0 then execToWrite s
  else if s.dlInhibit = some 0 then execToInhibit s
  else .next s

/-- Phase 5: the host command of this tick, if any (R126); it is taken off the port. -/
def hostPhase (s : State) : Out :=
  match s.portHost with
  | none => .next s
  | some c => runHost c { s with portHost := none }

/-- `TICK` (R126): the five phases, each seeing the writes of the one before. A tick in which `reset` is asserted performs `RESET` and
none of the phases (70_reset_and_hazards.md R300). -/
def execTick (sclDev sdaDev : Level) (s : State) : Out :=
  if s.portReset then .next (resetRegisters { s with portHost := none, portReset := false })
  else andThen (andThen (edgePhase sclDev sdaDev (countPhase s)) deadlinePhase) hostPhase

/-- `RESET` (70_reset_and_hazards.md R300). -/
def execReset (s : State) : Out := .next (resetRegisters s)

end Sys2Proof.Machine
end

