-- ==== Sys2Proof/Machine/Dispatch.lean ====
section
/-! DEFINITION. One arm per constructor of Instr: the meaning of each operation. -/

namespace Sys2Proof.Machine

def exec (i : Instr) (s : State) : Host.Outcome State Fault Refusal :=
  match i with
  | .rdStart d => Sys2Proof.Machine.execRdStart d s
  | .rdData1 d => Sys2Proof.Machine.execRdData1 d s
  | .rdData2 d => Sys2Proof.Machine.execRdData2 d s
  | .rdData3 d => Sys2Proof.Machine.execRdData3 d s
  | .rdData4 d => Sys2Proof.Machine.execRdData4 d s
  | .rdData5 d => Sys2Proof.Machine.execRdData5 d s
  | .rdData6 d => Sys2Proof.Machine.execRdData6 d s
  | .rdData7 d => Sys2Proof.Machine.execRdData7 d s
  | .rdData8 d => Sys2Proof.Machine.execRdData8 d s
  | .rdParity d => Sys2Proof.Machine.execRdParity d s
  | .rdStop d => Sys2Proof.Machine.execRdStop d s
  | .wrStart d => Sys2Proof.Machine.execWrStart d s
  | .wrData1 d => Sys2Proof.Machine.execWrData1 d s
  | .wrData2 d => Sys2Proof.Machine.execWrData2 d s
  | .wrData3 d => Sys2Proof.Machine.execWrData3 d s
  | .wrData4 d => Sys2Proof.Machine.execWrData4 d s
  | .wrData5 d => Sys2Proof.Machine.execWrData5 d s
  | .wrData6 d => Sys2Proof.Machine.execWrData6 d s
  | .wrData7 d => Sys2Proof.Machine.execWrData7 d s
  | .wrData8 d => Sys2Proof.Machine.execWrData8 d s
  | .wrParity d => Sys2Proof.Machine.execWrParity d s
  | .wrStop d => Sys2Proof.Machine.execWrStop d s
  | .wrAck d => Sys2Proof.Machine.execWrAck d s
  | .toRead => Sys2Proof.Machine.execToRead s
  | .toWrite => Sys2Proof.Machine.execToWrite s
  | .toInhibit => Sys2Proof.Machine.execToInhibit s
  | .hWrite b => Sys2Proof.Machine.execHWrite b s
  | .hCollect => Sys2Proof.Machine.execHCollect s
  | .reset => Sys2Proof.Machine.execReset s
  | .tick c d => Sys2Proof.Machine.execTick c d s
  | .hConfigure p => Sys2Proof.Machine.execHConfigure p s
  | .hEnableCb => Sys2Proof.Machine.execHEnableCb s
  | .hDisableCb => Sys2Proof.Machine.execHDisableCb s
  | .hRead => Sys2Proof.Machine.execHRead s

end Sys2Proof.Machine
end

