-- ==== Sys2Proof/Machine/Step.lean ====
section
/-! DEFINITION. One step: the next input event is handled (20_memory.md R70, 40_edge_dispatch.md R123). -/

namespace Sys2Proof.Machine

/-- One step (log entry 2). The dispatch forms the event word of the next event and the block runs the operation it decodes to; a
reserved word is a fault (30_encoding.md R101). With no event left nothing happens. -/
def step (s : State) : Host.Outcome State Fault Refusal :=
  match s.events with
  | [] => .next s
  | e :: rest =>
    match decodeWord (formWord e s) with
    | .ok i => exec i (loadEvent e rest s)
    | .error r => .fault (faultOf r)

/-- `s` with the operation of the table word `w` (bits from `nbits` up are 0) made the very next one `step` runs (log entry 3). -/
def State.withFetchWord (s : State) (nbits w : Nat) : State :=
  placeWord (BitVec.ofNat 17 (w % 2 ^ nbits)) s

end Sys2Proof.Machine
end

