-- ==== Sys2Proof/Machine/HostCalls.lean ====
section
/-! DEFINITION. The host's two blocking composites, `writeBlocking` (44_host_boundary.md R231, pseudo-operation WRITEB) and `read` (R239),
over the ticks in which they wait (log entry 15). They issue operations of the block and are none themselves. -/

namespace Sys2Proof.Machine

/-- The inputs of one tick of the call: the device levels and the level of `reset` (10_state.md R38). -/
structure Sample where
  scl : Level
  sda : Level
  reset : Bool
  deriving DecidableEq, Repr

/-- How far a call has come: it has returned, it still waits when the given ticks are over, or the machine has stopped. -/
inductive CallStatus (ρ : Type) where
  | returned (r : ρ) (s : State)
  | waiting (s : State)
  | faulted (f : Fault)
  | refused (r : Refusal)
  deriving DecidableEq, Repr

/-- The four results of `writeBlocking` (R231). -/
inductive WriteReply where
  | success
  | writeFailure
  | timeout
  | busy
  deriving DecidableEq, Repr

/-- The results of `read` (R239). -/
inductive ReadReply where
  | byte (b : Byte)
  | timeout
  deriving DecidableEq, Repr

/-- One tick with at most one host command (40_edge_dispatch.md R126); while `reset` is asserted the command is not run
(70_reset_and_hazards.md R300). -/
def hostTick (x : Sample) (c : Option HostCmd) (s : State) : Out :=
  execTick x.scl x.sda { s with portHost := c, portReset := x.reset }

/-- The result the host operation of the tick from `s` to `t` returned: phase 5 comes last, so it is the tick's last output. A tick
with `reset` has none. -/
def lastResult (s t : State) : Option HostResult :=
  match (t.outs.drop s.outs.length).getLast? with
  | some (.result r) => some r
  | _ => none

/-- The wait of `writeBlocking`: `H.COLLECT` in every tick until it does not answer `Blocked`, for at most `n` ticks; then the error
`Timeout` (60_exceptions.md R261, R264 (d)), the lock not taken and `wr_status` not reset (R231). A `RESET` in the wait drops the write
and releases nobody (70_reset_and_hazards.md R302). -/
def waitWrite : Nat → List Sample → State → CallStatus WriteReply
  | 0, _, s => .returned .timeout (s.raise .timeout)
  | _ + 1, [], s => .waiting s
  | n + 1, x :: xs, s =>
    match hostTick x (some .collect) s with
    | .next t =>
      match lastResult s t with
      | some (.status .success) => .returned .success t
      | some (.status _) => .returned .writeFailure t
      | _ => waitWrite n xs t
    | .fault f => .faulted f
    | .refused r => .refused r

/-- `writeBlocking(b)` (R231), its one `H.WRITE` in the first tick: "there is no automatic write retry" (60_exceptions.md R271). Only `Busy`
ends the call there; where that tick has `reset` the command is skipped with the tick (70_reset_and_hazards.md R300) and the host, told
nothing, waits like one whose write a `RESET` dropped (R302; DEDUCED, log entry 15). So the call returns after at most T_BLOCK_WRITE more ticks. -/
def writeBlocking (b : Byte) : List Sample → State → CallStatus WriteReply
  | [], s => .waiting s
  | x :: rest, s =>
    match hostTick x (some (.write b)) s with
    | .next t =>
      match lastResult s t with
      | some .busy => .returned .busy t
      | _ => waitWrite t.par.tBlockWrite rest t
    | .fault f => .faulted f
    | .refused r => .refused r

/-- The end of `read` once the queue holds a byte: `H.READ` (R236, R239). -/
def takeByte (b : Byte) (s : State) : CallStatus ReadReply :=
  match execHRead s with
  | .next t => .returned (.byte b) t
  | .fault f => .faulted f
  | .refused r => .refused r

/-- The wait of `read`: ticks pass until the queue holds a byte, at most `n` of them; then the error `Timeout` (R239). -/
def waitRead : Nat → List Sample → State → CallStatus ReadReply
  | 0, _, s =>
    match s.queue with
    | b :: _ => takeByte b s
    | [] => .returned .timeout (s.raise .timeout)
  | n + 1, xs, s =>
    match s.queue with
    | b :: _ => takeByte b s
    | [] =>
      match xs with
      | [] => .waiting s
      | x :: rest =>
        match hostTick x none s with
        | .next t => waitRead n rest t
        | .fault f => .faulted f
        | .refused r => .refused r

/-- `read()` (R239). -/
def readBlocking (xs : List Sample) (s : State) : CallStatus ReadReply := waitRead s.par.tBlockRead xs s

end Sys2Proof.Machine
end

