-- ==== Sys2Proof/Machine/Trace.lean ====
section
/-! DEFINITION. Traces (30_encoding.md R104) and the pseudo-operations that expand to events (R105). -/

namespace Sys2Proof.Machine

/-- One line of a trace: an event in the spelling of R104, `T` with the host command and the `reset` level of its tick. -/
inductive TraceLine where
  | E (d : Level)
  | TR
  | TW
  | TI
  | W (b : Byte)
  | C
  | RST
  | T (c d : Level) (host : Option HostCmd) (reset : Bool)
  | CFG (p : Bool)
  | ENA
  | DIS
  | RD
  deriving DecidableEq, Repr

/-- The event of a trace line: its kind (R97) and operand (R99). -/
def TraceLine.event : TraceLine → Event
  | .E d => ⟨0#4, bitOperand d, none, false⟩
  | .TR => ⟨1#4, 0#8, none, false⟩
  | .TW => ⟨2#4, 0#8, none, false⟩
  | .TI => ⟨3#4, 0#8, none, false⟩
  | .W b => ⟨4#4, b, none, false⟩
  | .C => ⟨5#4, 0#8, none, false⟩
  | .RST => ⟨6#4, 0#8, none, false⟩
  | .T c d host reset => ⟨7#4, tickOperand c d, host, reset⟩
  | .CFG p => ⟨8#4, bitOperand p, none, false⟩
  | .ENA => ⟨9#4, 0#8, none, false⟩
  | .DIS => ⟨10#4, 0#8, none, false⟩
  | .RD => ⟨11#4, 0#8, none, false⟩

/-- The block with a trace as its only input (log entry 2: how a program comes to run). -/
def State.withTrace (s : State) (ls : List TraceLine) : State := { s with events := ls.map TraceLine.event }

/-- `RXRAW f` (R105): the eleven edges that carry the levels of the 11-bit frame word `f`, slot 0 first. -/
def rxRaw (f : BitVec 11) : List TraceLine :=
  (List.range 11).map fun i => .E (f.getLsbD i)

/-- `RXFRAME b` (R105): start 0, the data bits LSB first, parity, stop 1. -/
def rxFrame (b : Byte) : List TraceLine :=
  [.E false] ++ ((List.range 8).map fun i => .E (bitOf b i)) ++ [.E (wireParity b), .E true]

/-- `TXCLK a` (R105): the inhibition expiry, ten edges and the edge that samples the Ack level `a`. -/
def txClk (a : Level) : List TraceLine :=
  [.TI] ++ List.replicate 10 (.E true) ++ [.E a]

/-! ### Spelling (R104) -/

/-- A hexadecimal digit. -/
def hexDigit (n : Nat) : String :=
  String.singleton ("0123456789ABCDEF".toList.getD n '0')

/-- `0xNN`. -/
def hexByte (b : Byte) : String := "0x" ++ hexDigit (b.toNat / 16) ++ hexDigit (b.toNat % 16)

/-- `0` or `1`. -/
def spellBit (d : Bool) : String := if d then "1" else "0"

/-- The spelling of a host command, which is that of its own event. -/
def HostCmd.spell : HostCmd → String
  | .write b => "W " ++ hexByte b
  | .collect => "C"
  | .configure p => "CFG " ++ spellBit p
  | .enableCb => "ENA"
  | .disableCb => "DIS"
  | .read => "RD"

/-- The spelling of a trace line; a host command of the same tick is a line of its own after its `T`, and a tick with `reset`
asserted is `RST`. -/
def TraceLine.spell : TraceLine → List String
  | .E d => ["E " ++ spellBit d]
  | .TR => ["TR"]
  | .TW => ["TW"]
  | .TI => ["TI"]
  | .W b => ["W " ++ hexByte b]
  | .C => ["C"]
  | .RST => ["RST"]
  | .T _ _ _ true => ["RST"]
  | .T c d none false => ["T " ++ spellBit c ++ " " ++ spellBit d]
  | .T c d (some h) false => ["T " ++ spellBit c ++ " " ++ spellBit d, h.spell]
  | .CFG p => ["CFG " ++ spellBit p]
  | .ENA => ["ENA"]
  | .DIS => ["DIS"]
  | .RD => ["RD"]

end Sys2Proof.Machine
end

