-- ==== Sys2Proof/WellFormed.lean ====
section
/-! DEFINITION. Checks on what is handed to the block. An `Instr` needs none (its operands are typed); an event word and a parameter
record do. No definition of the machine assumes a check: they are premises of statements and tests. -/

namespace Sys2Proof

/-- The operand bits a kind uses (30_encoding.md R99); every other operand bit of a word the spec writes is 0. -/
def operandMask (kind : BitVec 4) : Byte :=
  match kind.toNat with
  | 0 => 0x01#8
  | 4 => 0xFF#8
  | 7 => 0x03#8
  | 8 => 0x01#8
  | _ => 0x00#8

/-- No operand bit is set that the kind does not use (R99). -/
def EventWord.operandClean (w : EventWord) : Bool :=
  EventWord.operand w &&& ~~~(operandMask (EventWord.kind w)) == 0#8

/-- The word is not one of the reserved words of R101. -/
def EventWord.notReserved (w : EventWord) : Bool :=
  match (EventWord.kind w).toNat with
  | 0 =>
    match EventWord.mode w with
    | .read => (EventWord.slot w).toNat ≤ 10
    | .write => (EventWord.slot w).toNat ≤ 11
  | k => k ≤ 11

/-- A word an event source of the spec can present (R99, R101). -/
def EventWord.wellFormed (w : EventWord) : Bool :=
  EventWord.operandClean w && EventWord.notReserved w

/-- Every deadline is armed with at least one tick, so that an operation never fires the deadline it has just armed
(40_edge_dispatch.md R126, corner case (b)). -/
def Params.deadlinesPositive (p : Params) : Bool :=
  0 < p.tReadBit && 0 < p.tWriteBit && 0 < p.tWriteFirst && 0 < p.tInhibit

/-- The time quantum is not 0. -/
def Params.tickPositive (p : Params) : Bool := 0 < p.tick

/-- A usable parameter record. -/
def Params.wellFormed (p : Params) : Bool := p.deadlinesPositive && p.tickPositive

end Sys2Proof
end

