-- ==== Sys2Proof/Safety.lean ====
section
/-! DEFINITION. What counts as a safe state and a safe run: the invariants of the reachable state (10_state.md section 9), the events the
spec admits (40_edge_dispatch.md R127), and the environment assumption of R128. -/

namespace Sys2Proof.Machine

/-- At most one deadline is armed (10_state.md R43). -/
abbrev AtMostOneArmed (s : State) : Prop :=
  (s.dlRead ≠ none → s.dlWrite = none ∧ s.dlInhibit = none) ∧
  (s.dlWrite ≠ none → s.dlRead = none ∧ s.dlInhibit = none) ∧
  (s.dlInhibit ≠ none → s.dlRead = none ∧ s.dlWrite = none)

/-- 10_state.md R44. -/
abbrev ReadModeRest (s : State) : Prop :=
  s.mode = .read → s.wrPos = 0#4 ∧ s.dlWrite = none ∧ s.dlInhibit = none ∧ s.sclDir = .input ∧ s.sdaDir = .input ∧
    s.irqEn = true ∧ s.wrStatus ≠ .active

/-- 10_state.md R45. -/
abbrev ReadDeadlineGuardsFrame (s : State) : Prop :=
  s.mode = .read → (s.dlRead ≠ none ↔ s.rdPos ≠ 0#4)

/-- 10_state.md R46. -/
abbrev WriteModeRest (s : State) : Prop :=
  s.mode = .write → s.rdPos = 0#4 ∧ s.rdAcc = 0x00#8 ∧ s.dlRead = none ∧ s.wrStatus = .active ∧ s.lock = false

/-- The inhibition hold: Write mode at slot Start (10_state.md R26). -/
abbrev InHold (s : State) : Prop := s.mode = .write ∧ s.wrPos = 0#4

/-- 10_state.md R47. -/
abbrev HoldShape (s : State) : Prop :=
  InHold s → s.irqEn = false ∧ s.sclDir = .output ∧ s.sclOut = false ∧ s.sdaDir = .output ∧ s.sdaOut = true ∧
    s.dlInhibit ≠ none ∧ s.dlWrite = none

/-- 10_state.md R48. -/
abbrev ClockedWriteShape (s : State) : Prop :=
  s.mode = .write ∧ s.wrPos ≠ 0#4 → s.irqEn = true ∧ s.sclDir = .input ∧ s.dlWrite ≠ none ∧ s.dlInhibit = none ∧
    (s.sdaDir = .output ↔ s.wrPos.toNat ≤ 10)

/-- The positions never leave their frames (10_state.md R27). -/
abbrev PositionsInFrame (s : State) : Prop := s.rdPos.toNat ≤ 10 ∧ s.wrPos.toNat ≤ 11

/-- `lock = 1` if and only if a finished write waits to be collected (44_host_boundary.md R230, corner case (a)). -/
abbrev LockMeansFinished (s : State) : Prop :=
  s.lock = true ↔ (s.wrStatus = .success ∨ s.wrStatus = .failure)

/-- `rd_acc` is 0 at the Start slot (41_read_frame.md R141, corner case). -/
abbrev AccClearAtStart (s : State) : Prop := s.mode = .read → s.rdPos = 0#4 → s.rdAcc = 0x00#8

/-- An armed counter is at most its start value (10_state.md R20). -/
abbrev CountersBounded (s : State) : Prop :=
  (∀ n, s.dlRead = some n → n ≤ s.par.tReadBit) ∧
  (∀ n, s.dlWrite = some n → n ≤ if s.wrPos = 1#4 then s.par.tWriteFirst else s.par.tWriteBit) ∧
  (∀ n, s.dlInhibit = some n → n ≤ s.par.tInhibit)

/-- `resend_cnt` stays within 0 to RESEND_MAX, and at 0 where there is no bound (10_state.md R20, R36). -/
abbrev ResendBounded (s : State) : Prop :=
  (s.par.resendMax = none → s.resendCnt = 0) ∧ ∀ m, s.par.resendMax = some m → s.resendCnt ≤ m

/-- The Byte Queue stays within a finite QUEUE_CAP (44_host_boundary.md R237). -/
abbrev QueueBounded (s : State) : Prop := ∀ c, s.par.queueCap = some c → s.queue.length ≤ c

/-- The invariant of the reachable state (10_state.md R43 to R48 and the facts its rules rest on). -/
structure Inv (s : State) : Prop where
  oneArmed : AtMostOneArmed s
  readRest : ReadModeRest s
  readGuard : ReadDeadlineGuardsFrame s
  writeRest : WriteModeRest s
  hold : HoldShape s
  clocked : ClockedWriteShape s
  positions : PositionsInFrame s
  lockStatus : LockMeansFinished s
  accClear : AccClearAtStart s
  counters : CountersBounded s
  resend : ResendBounded s
  queue : QueueBounded s

/-- Between ticks no armed deadline is at 0: a deadline at 0 has fired (40_edge_dispatch.md R126, corner cases (a) and (b)). -/
abbrev DeadlinesPending (s : State) : Prop := s.dlRead ≠ some 0 ∧ s.dlWrite ≠ some 0 ∧ s.dlInhibit ≠ some 0

/-- The idle state (00_scope.md R19): Read mode at Start, no deadline armed, both lines input. -/
abbrev Idle (s : State) : Prop :=
  s.mode = .read ∧ s.rdPos = 0#4 ∧ s.dlRead = none ∧ s.dlWrite = none ∧ s.dlInhibit = none ∧ s.sclDir = .input ∧ s.sdaDir = .input

/-- The events the spec admits in a state (R127, U13): an edge while the interrupt is enabled, a deadline while it is armed, and every
tick, reset and host command; no event has one of the reserved kinds (30_encoding.md R101). -/
def admitted (e : Event) (s : State) : Bool :=
  match e.kind.toNat with
  | 0 => s.irqEn
  | 1 => s.dlRead.isSome
  | 2 => s.dlWrite.isSome
  | 3 => s.dlInhibit.isSome
  | k => k ≤ 11

/-- The outcome is a next state: no fault and no refusal. -/
def completes (o : Out) : Prop := ∃ t, o = .next t

/-- ENVIRONMENT ASSUMPTION (R128), never assumed by the machine: two falling edges of the device's clock are at least `gap` ticks apart.
`since` counts the ticks since the last falling edge, `prev` is the level before. -/
def fallsSpaced (gap : Nat) : Option Nat → Level → List Level → Bool
  | _, _, [] => true
  | since, prev, now :: rest =>
    if fallingEdge prev now then
      (match since with
        | none => true
        | some k => decide (gap ≤ k)) && fallsSpaced gap (some 1) now rest
    else fallsSpaced gap (since.map (· + 1)) now rest

/-- A device clock, tick by tick from an idle bus, that keeps `MIN_BIT_PERIOD` (R128). -/
def deviceClockOk (p : Params) (levels : List Level) : Bool := fallsSpaced p.minBitPeriod none true levels

end Sys2Proof.Machine
end

