-- ==== Sys2Proof/Certificates/Slice0/Obligations.lean ====
section
/-! DEFINITION. The statements for the provers. Each docstring names the rule of spec/ it formalises. Where a statement gives the next
state of an operation as `{ s with … }`, every field it does not name is unchanged: the equation is the operation's frame too. The block
has no memory (20_memory.md R60), so no statement speaks of one. -/

namespace Sys2Proof.Machine

/-! ### Words the statements use, written out from the spec and not from the machine's own operations -/

/-- How many of the eight bits are set. -/
def bitCount (v : Byte) : Nat := ((List.range 8).filter fun j => v.getLsbD j).length

/-- The parity bit of a byte: "parity bit = 1 when the data byte has an even number of set bits" (30_encoding.md R94). -/
def evenParityBit (v : Byte) : Level := decide (bitCount v % 2 = 0)

/-- The level of SCL while the device puts `c` on it (20_memory.md R61, R62). -/
def sclLevel (s : State) (c : Level) : Level := c && (if s.sclDir = .output then s.sclOut else true)

/-- The level of SDA while the device puts `d` on it. -/
def sdaLevel (s : State) (d : Level) : Level := d && (if s.sdaDir = .output then s.sdaOut else true)

/-- An enabled falling edge of SCL in a tick (40_edge_dispatch.md R120, R122). -/
def EdgeSeen (s : State) (c : Level) : Prop := s.sclPrev = true ∧ sclLevel s c = false ∧ s.irqEn = true

/-- The state in which a tick handles its edge and its deadline: counters counted once, SCL recorded (R126, phases 1 and 2). -/
def sampled (s : State) (c : Level) : State :=
  { s with
    dlRead := s.dlRead.map (· - 1), dlWrite := s.dlWrite.map (· - 1), dlInhibit := s.dlInhibit.map (· - 1)
    sclPrev := sclLevel s c }

/-- A read frame abandoned without resend (41_read_frame.md R153, R155). -/
def frameDropped (s : State) : State := { s with rdPos := 0#4, rdAcc := 0x00#8, dlRead := none }

/-- Everything an admitted `H.WRITE(b)` writes (42_write_frame.md R170). -/
def writeAdmitted (b : Byte) (s : State) : State :=
  { s with
    mode := .write, wrPos := 0#4, wrByte := b, wrStatus := .active, lock := false
    rdPos := 0#4, rdAcc := 0x00#8, dlRead := none
    sclDir := .output, sdaDir := .output, irqEn := false, sclOut := false, sdaOut := true
    dlInhibit := some s.par.tInhibit }

/-- An abort with resend (41_read_frame.md R156, R157). -/
def frameResent (s : State) : State :=
  match s.par.resendMax with
  | none => writeAdmitted s.par.resendByte s
  | some m =>
    if s.resendCnt < m then { writeAdmitted s.par.resendByte s with resendCnt := s.resendCnt + 1 } else frameDropped s

/-- Everything `Finish(c)` writes, and its DONE (42_write_frame.md R190). -/
def writeFinished (c : Completion) (s : State) : State :=
  { s with
    dlWrite := none, wrStatus := (match c with | .success => .success | .failure => .failure), mode := .read
    rdPos := 0#4, wrPos := 0#4, sclDir := .input, sdaDir := .input, lock := true, outs := s.outs ++ [.done c] }

/-- The read operation of each slot, slot 0 first (30_encoding.md R100). -/
def readOps (d : Level) : List Instr :=
  [.rdStart d, .rdData1 d, .rdData2 d, .rdData3 d, .rdData4 d, .rdData5 d, .rdData6 d, .rdData7 d, .rdData8 d, .rdParity d, .rdStop d]

/-- The write operation of each slot, slot 0 first (30_encoding.md R100). -/
def writeOps (d : Level) : List Instr :=
  [.wrStart d, .wrData1 d, .wrData2 d, .wrData3 d, .wrData4 d, .wrData5 d, .wrData6 d, .wrData7 d, .wrData8 d, .wrParity d,
   .wrStop d, .wrAck d]

/-- `op` is a read data slot `k`: it stores the sampled level into bit `k - 1` of the accumulator, keeps the other bits, advances the
position and arms the read-bit deadline. -/
def StoresDataBit (op : Level → Instr) (k : Nat) : Prop :=
  ∀ (s : State) (d : Level), s.mode = .read → s.rdPos = BitVec.ofNat 4 k →
    ∃ acc : Byte,
      exec (op d) s =
        .next { s with rdAcc := acc, rdPos := BitVec.ofNat 4 (k + 1), dlRead := some s.par.tReadBit } ∧
      ∀ j, j < 8 → acc.getLsbD j = if j + 1 = k then d else s.rdAcc.getLsbD j

/-- `op` is a write data slot `k`: it drives bit `k - 1` of the byte, advances the position and arms the write-bit deadline. -/
def DrivesDataBit (op : Level → Instr) (k : Nat) : Prop :=
  ∀ (s : State) (d : Level), s.mode = .write → s.wrPos = BitVec.ofNat 4 k →
    exec (op d) s =
      .next { s with
        sdaOut := s.wrByte.getLsbD (k - 1), wrPos := BitVec.ofNat 4 (k + 1), dlWrite := some s.par.tWriteBit }

/-- The outcome of the `Alloc()` draw number `k`, counted from 0, made from `s`: the supplied ones first, then free values (log entry 7). -/
def allocOutcome (s : State) (k : Nat) : Bool :=
  match s.allocDraws[k]? with
  | some a => a
  | none => Config.freeAlloc (s.allocCnt + (k - s.allocDraws.length))

/-- The state after `k` draws. -/
def allocsTaken (s : State) (k : Nat) : State :=
  { s with allocDraws := s.allocDraws.drop k, allocCnt := s.allocCnt + (k - s.allocDraws.length) }

/-- No `Timeout` is reported between `s` and `t`. -/
def NoTimeout (s t : State) : Prop := ∀ m p, Output.err .timeout m p ∉ t.outs.drop s.outs.length

/-- The two outputs of a refused `H.WRITE` at slot `p`, in either order: the spec writes both (log entry 4). -/
def BusyOutputs (p : Slot) (os : List Output) : Prop :=
  os = [.err .busy .write p, .result .busy] ∨ os = [.result .busy, .err .busy .write p]

/-- A tick of a host call without its host command and without `reset`. -/
def bareTick (x : Sample) (s : State) : Out := exec (.tick x.scl x.sda) { s with portHost := none, portReset := false }

/-- The state after the given ticks of a host call without a host command, or the stop of the first of them that stops. -/
def ticksPass : List Sample → State → Out
  | [], s => .next s
  | x :: xs, s =>
    match exec (.tick x.scl x.sda) { s with portHost := none, portReset := x.reset } with
    | .next t => ticksPass xs t
    | .fault f => .fault f
    | .refused r => .refused r

/-- Every operation but `TICK`, which contains others, and `RESET`. -/
def singleEvent : Instr → Bool
  | .tick _ _ => false
  | .reset => false
  | _ => true

/-- The events are ticks in which `reset` is not asserted. -/
def TicksOnly (es : List Event) : Prop := ∀ e ∈ es, e.kind = 7#4 ∧ e.reset = false

end Sys2Proof.Machine

open Sys2Proof Sys2Proof.Machine

/-! ### Encoding -/

/-- Decoding the word of an operation gives the operation back, with every operand (30_encoding.md R96 to R100). -/
def Obligations.DecodeOfEncode : Prop := ∀ i : Instr, decodeWord (encode i) = .ok i

/-- Encoding the operation a word decodes to gives the word back, where the word has no unused operand bit and, for a kind other than EDGE,
`mode` and `slot` are 0, as 95_test_vectors.md lists such words (30_encoding.md R96 to R100). -/
def Obligations.EncodeOfDecode : Prop :=
  ∀ (w : EventWord) (i : Instr), EventWord.operandClean w = true →
    (EventWord.kind w ≠ 0#4 → EventWord.mode w = .read ∧ EventWord.slot w = 0#4) → decodeWord w = .ok i → encode i = w

/-- Every word matches the row of the operation it decodes to and no other row; a reserved word matches none
(30_encoding.md R98 to R101: "no word matches two rows"). -/
def Obligations.DecoderFollowsTheTable : Prop :=
  ∀ w : EventWord, (opcodeTable.filter fun r => r.covers w).map (fun r => r.mnemonic) =
    match decodeWord w with
    | .ok i => [i.mnemonic]
    | .error _ => []

/-- The reserved event words are exactly those R101 lists, and the machine treats one as a fault (30_encoding.md R101, 41_read_frame.md
R159, 42_write_frame.md R193).
Events as a list: log entry 2. -/
def Obligations.ReservedWordsAreFaults : Prop :=
  (∀ w : EventWord, (∃ r, decodeWord w = .error r) ↔
      ((EventWord.kind w).toNat = 0 ∧ EventWord.mode w = .read ∧ 11 ≤ (EventWord.slot w).toNat) ∨
      ((EventWord.kind w).toNat = 0 ∧ EventWord.mode w = .write ∧ 12 ≤ (EventWord.slot w).toNat) ∨
      12 ≤ (EventWord.kind w).toNat) ∧
  ∀ (s : State) (e : Event) (rest : List Event), s.events = e :: rest →
    (12 ≤ e.kind.toNat → step s = .fault .reservedKind) ∧
    (e.kind = 0#4 → s.mode = .read → 11 ≤ s.rdPos.toNat → step s = .fault .reservedReadSlot) ∧
    (e.kind = 0#4 → s.mode = .write → 12 ≤ s.wrPos.toNat → step s = .fault .reservedWriteSlot)

/-- Words of 95_test_vectors.md and of opcode_table.json, one or more per format, decode to the operation they stand for. -/
def Obligations.ListedWordsDecode : Prop :=
  decodeWord 0x00001#17 = .ok (.rdStart true) ∧ decodeWord 0x00300#17 = .ok (.rdData3 false) ∧
  decodeWord 0x00901#17 = .ok (.rdParity true) ∧ decodeWord 0x01801#17 = .ok (.wrData8 true) ∧
  decodeWord 0x01B00#17 = .ok (.wrAck false) ∧ decodeWord 0x02000#17 = .ok .toRead ∧
  decodeWord 0x080ED#17 = .ok (.hWrite 0xED#8) ∧ decodeWord 0x095ED#17 = .ok (.hWrite 0xED#8) ∧
  decodeWord 0x0C000#17 = .ok .reset ∧ decodeWord 0x0E002#17 = .ok (.tick false true) ∧
  decodeWord 0x10001#17 = .ok (.hConfigure true) ∧ decodeWord 0x16000#17 = .ok .hRead

/-! ### The step -/

/-- A step runs the operation the dispatch selects: the word is formed from the event's kind and operand and the block's own `mode` and
position; a reserved word is a fault (30_encoding.md R96, R101). The model's choices: events come from a list and the handled one is taken
off, and with no event left nothing happens (log entry 2); what accompanies the event is put on the ports (log entry 5). -/
def Obligations.StepRunsTheSelectedOperation : Prop :=
  ∀ s : State,
    (∀ e rest i, s.events = e :: rest →
      decodeWord (EventWord.make e.kind s.mode (if s.mode = .read then s.rdPos else s.wrPos) e.operand) = .ok i →
      step s = exec i { s with events := rest, portHost := e.host, portReset := e.reset }) ∧
    (∀ e rest r, s.events = e :: rest →
      decodeWord (EventWord.make e.kind s.mode (if s.mode = .read then s.rdPos else s.wrPos) e.operand) = .error r →
      step s = .fault (faultOf r)) ∧
    (s.events = [] → step s = .next s)

/-- An EDGE event runs exactly the operation of (`mode`, position), with the sampled level as its operand (40_edge_dispatch.md R123). That
events come from a list, with what accompanies them on the ports, is the model's choice (log entries 2 and 5). -/
def Obligations.EdgeRunsTheOperationOfItsSlot : Prop :=
  ∀ (s : State) (e : Event) (rest : List Event) (i : Instr), s.events = e :: rest → e.kind = 0#4 →
    (s.mode = .read → (readOps (e.operand.getLsbD 0))[s.rdPos.toNat]? = some i →
      step s = exec i { s with events := rest, portHost := e.host, portReset := e.reset }) ∧
    (s.mode = .write → (writeOps (e.operand.getLsbD 0))[s.wrPos.toNat]? = some i →
      step s = exec i { s with events := rest, portHost := e.host, portReset := e.reset })

/-- An edge operation has a meaning only where the registers select it; anywhere else it is refused by name. That it is refused there is
the model's choice (log entry 8), and `step` never forms such a word (40_edge_dispatch.md R123). -/
def Obligations.EdgeOperationsOnlyWhereSelected : Prop :=
  ∀ (m : Mode) (k : Slot) (d : Level) (i : Instr) (s : State), edgeInstr m k d = .ok i →
    (s.mode = m ∧ s.pc = k → ∃ t, exec i s = .next t) ∧ (¬(s.mode = m ∧ s.pc = k) → exec i s = .refused .notEnabled)

/-! ### Reset -/

/-- `RESET` puts every register and the host boundary at its reset value and changes nothing else: no output event is emitted.
`State.reset` holds the same values (10_state.md R42, 70_reset_and_hazards.md R300). -/
def Obligations.ResetGivesTheResetValues : Prop :=
  (∀ s : State, exec .reset s = .next { s with
      mode := .read, rdAcc := 0x00#8, rdPos := 0#4, wrByte := 0x00#8, wrPos := 0#4, wrStatus := .inactive, lock := false
      irqEn := true, sclDir := .input, sdaDir := .input, sclOut := true, sdaOut := true, sclPrev := true
      dlRead := none, dlWrite := none, dlInhibit := none, resendCnt := 0, cb := .absent, cbEnabled := false, queue := [] }) ∧
  exec .reset State.reset = .next State.reset

/-- A tick in which `reset` is asserted performs `RESET` and none of its five phases (70_reset_and_hazards.md R300). That the two inputs of
the tick are then taken off the ports is the model's choice (log entry 5). -/
def Obligations.ResetWinsItsTick : Prop :=
  ∀ (s : State) (c d : Level), s.portReset = true →
    exec (.tick c d) s = exec .reset { s with portHost := none, portReset := false }

/-! ### The read side -/

/-- `RD.START` (41_read_frame.md R141): a 0 starts a frame; a 1 is `InvalidStartBit` and an abort without resend, which leaves an idle
block as it was but for the ERR. -/
def Obligations.ReadStartSlot : Prop :=
  ∀ s : State, s.mode = .read → s.rdPos = 0#4 →
    exec (.rdStart false) s = .next { s with rdPos := 1#4, dlRead := some s.par.tReadBit } ∧
    exec (.rdStart true) s = .next { frameDropped s with outs := s.outs ++ [.err .invalidStartBit .read 0#4] } ∧
    (s.rdAcc = 0x00#8 → s.dlRead = none →
      exec (.rdStart true) s = .next { s with outs := s.outs ++ [.err .invalidStartBit .read 0#4] })

/-- `RD.DATA1` to `RD.DATA8` (41_read_frame.md R142 to R149). -/
def Obligations.ReadDataSlots : Prop :=
  StoresDataBit .rdData1 1 ∧ StoresDataBit .rdData2 2 ∧ StoresDataBit .rdData3 3 ∧ StoresDataBit .rdData4 4 ∧
  StoresDataBit .rdData5 5 ∧ StoresDataBit .rdData6 6 ∧ StoresDataBit .rdData7 7 ∧ StoresDataBit .rdData8 8

/-- `RD.PARITY` (41_read_frame.md R150): the level must be the parity bit of the accumulator, else `InvalidParity` and an abort with
resend in the same step. -/
def Obligations.ReadParitySlot : Prop :=
  ∀ (s : State) (d : Level), s.mode = .read → s.rdPos = 9#4 →
    (d = evenParityBit s.rdAcc →
      exec (.rdParity d) s = .next { s with rdPos := 10#4, dlRead := some s.par.tReadBit }) ∧
    (d ≠ evenParityBit s.rdAcc →
      exec (.rdParity d) s = .next (frameResent { s with outs := s.outs ++ [.err .invalidParity .read 9#4] }))

/-- `RD.STOP` (41_read_frame.md R151, with Finalize R152 and ReadReset R153): a 1 delivers the accumulator and returns the read side to idle
with nothing armed; a 0 is `InvalidStopBit` and an abort with resend. -/
def Obligations.ReadStopSlot : Prop :=
  ∀ s : State, s.mode = .read → s.rdPos = 10#4 →
    exec (.rdStop true) s = .next (deliver s.rdAcc
      { frameDropped s with
        resendCnt := (if s.par.resendMax = none then s.resendCnt else 0), outs := s.outs ++ [.rx s.rdAcc] }) ∧
    exec (.rdStop false) s = .next (frameResent { s with outs := s.outs ++ [.err .invalidStopBit .read 10#4] })

/-- `AbortNoResend` and `AbortResend` in Read mode, where alone they run (41_read_frame.md R155, R156, R157): the internal write is the whole
of `H.WRITE`, it is never refused, and a finite RESEND_MAX bounds it. -/
def Obligations.AbortsFollowTheResendBound : Prop :=
  ∀ s : State, abortNoResend s = frameDropped s ∧ (s.mode = .read → abortResend s = frameResent s) ∧
    (s.mode = .read → (initiateWrite s.par.resendByte s).2 = .accepted)

/-- `Deliver` (44_host_boundary.md R233): to the callback if and only if one is registered and delivery is enabled, else to the queue. -/
def Obligations.DeliveryGoesToOneDestination : Prop :=
  ∀ (b : Byte) (s : State),
    (s.cb = .present ∧ s.cbEnabled = true → deliver b s = { s with outs := s.outs ++ [.cb b] }) ∧
    (¬(s.cb = .present ∧ s.cbEnabled = true) → deliver b s = queueAdd b s)

/-- `QueueAdd` (44_host_boundary.md R237), for every queue, every QUEUE_CAP and every sequence of `Alloc()` outcomes: append; or purge, retry
once and append; or drop the byte and report. The cases exclude each other and leave none out. That an allocation refused by a finite
QUEUE_CAP makes no draw, and that outcomes are a supplied list followed by free values, is the model's choice (log entry 7); a free value
may be either. -/
def Obligations.QueueAddPurgesAndRetriesOnce : Prop :=
  ∀ (b : Byte) (s : State),
    let failed (t : State) : State := { t with queue := [], outs := s.outs ++ [.err .allocationFailure s.mode s.pc] }
    (s.par.queueCap ≠ some s.queue.length → s.par.queueCap ≠ some 0 → queueAdd b s =
      if allocOutcome s 0 then { allocsTaken s 1 with queue := s.queue ++ [b] }
      else if allocOutcome s 1 then { allocsTaken s 2 with queue := [b] } else failed (allocsTaken s 2)) ∧
    (s.par.queueCap = some s.queue.length → s.queue ≠ [] → queueAdd b s =
      if allocOutcome s 0 then { allocsTaken s 1 with queue := [b] } else failed (allocsTaken s 1)) ∧
    (s.par.queueCap = some 0 → s.queue = [] → queueAdd b s = failed s) ∧
    (s.par.queueCap = some 0 → s.queue ≠ [] → queueAdd b s =
      if allocOutcome s 0 then { allocsTaken s 1 with queue := s.queue ++ [b] } else failed (allocsTaken s 1))

/-! ### The write side -/

/-- `H.WRITE` (42_write_frame.md R170, R171): admitted in Read mode whatever `lock` and `wr_status` are, a read in progress dropped without
ERR; in Write mode `Busy`, and nothing but the ERR and the result (in either order: the spec writes both). -/
def Obligations.HostWriteAdmittedOrBusy : Prop :=
  ∀ (s : State) (b : Byte),
    (s.mode = .read → exec (.hWrite b) s = .next { writeAdmitted b s with outs := s.outs ++ [.result .accepted] }) ∧
    (s.mode = .write → ∃ os,
      (os = [.err .busy .write s.wrPos, .result .busy] ∨ os = [.result .busy, .err .busy .write s.wrPos]) ∧
      exec (.hWrite b) s = .next { s with outs := s.outs ++ os })

/-- `TO.INHIBIT` (42_write_frame.md R176): in the hold it puts the start bit on SDA and hands SCL back; a firing anywhere else is a fault; it
is no event while its deadline is not armed (93_implementation_defined.md U13). -/
def Obligations.InhibitionEnds : Prop :=
  ∀ s : State,
    (∀ n, s.dlInhibit = some n → s.mode = .write → s.wrPos = 0#4 →
      exec .toInhibit s = .next { s with
        dlInhibit := none, irqEn := true, sdaOut := false, wrPos := 1#4, sclOut := true, sclDir := .input
        dlWrite := some s.par.tWriteFirst }) ∧
    (∀ n, s.dlInhibit = some n → ¬(s.mode = .write ∧ s.wrPos = 0#4) →
      exec .toInhibit s = .fault .inhibitDeadlineOutsideHold) ∧
    (s.dlInhibit = none → exec .toInhibit s = .refused .deadlineNotArmed)

/-- `WR.DATA1` to `WR.DATA8` (42_write_frame.md R179 to R186). -/
def Obligations.WriteDataSlots : Prop :=
  DrivesDataBit .wrData1 1 ∧ DrivesDataBit .wrData2 2 ∧ DrivesDataBit .wrData3 3 ∧ DrivesDataBit .wrData4 4 ∧
  DrivesDataBit .wrData5 5 ∧ DrivesDataBit .wrData6 6 ∧ DrivesDataBit .wrData7 7 ∧ DrivesDataBit .wrData8 8

/-- `WR.START`, `WR.PARITY` and `WR.STOP` (42_write_frame.md R178, R187, R188); none reads the sampled level. -/
def Obligations.WriteStartParityStopSlots : Prop :=
  ∀ (s : State) (d : Level), s.mode = .write →
    (s.wrPos = 0#4 → exec (.wrStart d) s = .next { s with dlWrite := none }) ∧
    (s.wrPos = 9#4 → exec (.wrParity d) s =
      .next { s with sdaOut := evenParityBit s.wrByte, wrPos := 10#4, dlWrite := some s.par.tWriteBit }) ∧
    (s.wrPos = 10#4 → exec (.wrStop d) s =
      .next { s with sdaOut := true, sdaDir := .input, wrPos := 11#4, dlWrite := some s.par.tWriteBit })

/-- `WR.ACK` with `Finish` (42_write_frame.md R189, R190): 0 is success, 1 is `AckFailure` and failure; either way the write is over. -/
def Obligations.WriteAckFinishes : Prop :=
  ∀ s : State, s.mode = .write → s.wrPos = 11#4 →
    exec (.wrAck false) s = .next (writeFinished .success s) ∧
    exec (.wrAck true) s =
      .next (writeFinished .failure { s with outs := s.outs ++ [.err .ackFailure .write 11#4] })

/-! ### The timeouts -/

/-- `TO.READ` (43_timeouts.md R213): always ERR Timeout; without resend up to EARLY_ABORT_MAX_POS, with resend after it; a fault in Write mode;
no event while the deadline is not armed (93_implementation_defined.md U13). -/
def Obligations.ReadTimeoutEscalates : Prop :=
  ∀ s : State,
    (∀ n, s.dlRead = some n → s.mode = .read →
      (s.rdPos.toNat ≤ s.par.earlyAbortMaxPos →
        exec .toRead s = .next { frameDropped s with outs := s.outs ++ [.err .timeout .read s.rdPos] }) ∧
      (s.par.earlyAbortMaxPos < s.rdPos.toNat →
        exec .toRead s = .next (frameResent { s with outs := s.outs ++ [.err .timeout .read s.rdPos] }))) ∧
    (∀ n, s.dlRead = some n → s.mode = .write → exec .toRead s = .fault .readDeadlineInWriteMode) ∧
    (s.dlRead = none → exec .toRead s = .refused .deadlineNotArmed)

/-- `TO.WRITE` (43_timeouts.md R214): ERR Timeout and `Finish(Failure)`; a fault in Read mode (D19); no event while the deadline is not armed. -/
def Obligations.WriteTimeoutFinishes : Prop :=
  ∀ s : State,
    (∀ n, s.dlWrite = some n → s.mode = .write →
      exec .toWrite s = .next (writeFinished .failure { s with outs := s.outs ++ [.err .timeout .write s.wrPos] })) ∧
    (∀ n, s.dlWrite = some n → s.mode = .read → exec .toWrite s = .fault .writeDeadlineInReadMode) ∧
    (s.dlWrite = none → exec .toWrite s = .refused .deadlineNotArmed)

/-! ### The host boundary -/

/-- `H.COLLECT` (44_host_boundary.md R230): with `lock = 1` it takes the lock and returns the status, which becomes Inactive; with `lock = 0`
it is `Blocked`; so the second of two in a row is `Blocked`. -/
def Obligations.CollectTakesTheLock : Prop :=
  ∀ s : State,
    (s.lock = true →
      exec .hCollect s =
        .next { s with lock := false, wrStatus := .inactive, outs := s.outs ++ [.result (.status s.wrStatus)] }) ∧
    (s.lock = false → exec .hCollect s = .next { s with outs := s.outs ++ [.result .blocked] }) ∧
    (∀ t, exec .hCollect s = .next t → exec .hCollect t = .next { t with outs := t.outs ++ [.result .blocked] })

/-- `H.CONFIGURE` (44_host_boundary.md R232); the ERR and the result of a failed one stand in either order, as the spec writes both. -/
def Obligations.ConfigureRegistersACallback : Prop :=
  ∀ s : State,
    exec (.hConfigure true) s = .next { s with cb := .present, outs := s.outs ++ [.result .ok] } ∧
    ∃ os, (os = [.err .invalidArgument s.mode s.pc, .result .invalidArgument] ∨
        os = [.result .invalidArgument, .err .invalidArgument s.mode s.pc]) ∧
      exec (.hConfigure false) s = .next { s with outs := s.outs ++ os }

/-- `H.ENABLECB` and `H.DISABLECB` with `Flush` (44_host_boundary.md R234, R235, R238); disabling twice in a row is the same as once. -/
def Obligations.SwitchingDeliveryFlushes : Prop :=
  ∀ s : State,
    exec .hEnableCb s = .next { s with cbEnabled := true, queue := [] } ∧
    exec .hDisableCb s = .next { s with cbEnabled := false, queue := [] } ∧
    (∀ t, exec .hDisableCb s = .next t → exec .hDisableCb t = .next t)

/-- `H.READ` (44_host_boundary.md R236): the head of the queue, or `Empty`. -/
def Obligations.ReadPopsTheQueue : Prop :=
  ∀ s : State,
    (s.queue = [] → exec .hRead s = .next { s with outs := s.outs ++ [.result .empty] }) ∧
    (∀ b rest, s.queue = b :: rest →
      exec .hRead s = .next { s with queue := rest, outs := s.outs ++ [.result (.byte b)] })

/-- The composite `read` (44_host_boundary.md R239) at its two ends: a waiting byte is returned at once; on an idle block with SCL high
throughout, and the queue empty, it raises and returns `Timeout`, all else as before the call. The wait itself is
`BlockingReadReturnsTheFirstByte`. How it meets the ticks is the model's choice (log entry 15). -/
def Obligations.BlockingReadReturnsHeadOrTimesOut : Prop :=
  ∀ s : State,
    (∀ (xs : List Sample) (b : Byte) (rest : List Byte), s.queue = b :: rest →
      readBlocking xs s = .returned (.byte b) { s with queue := rest, outs := s.outs ++ [.result (.byte b)] }) ∧
    (∀ xs : List Sample, Inv s → Idle s → s.sclPrev = true → s.queue = [] → s.portHost = none → s.portReset = false →
      s.par.tBlockRead ≤ xs.length → (∀ x ∈ xs, x.scl = true ∧ x.reset = false) →
      readBlocking xs s = .returned .timeout { s with outs := s.outs ++ [.err .timeout s.mode s.pc] })

/-- The wait of `read` (44_host_boundary.md R239: "wait until queue ≠ [], for at most T_BLOCK_READ"), from every state and whatever happens in
its ticks, `reset` included. Let `ys` be ticks with the queue empty before each. A byte at the head of the queue after them is returned, in
the state they left with that byte taken; with the queue still empty, `read` raises and returns `Timeout` when T_BLOCK_READ ticks have
passed, and waits while fewer have. How the wait meets the ticks is the model's choice (log entry 15). -/
def Obligations.BlockingReadReturnsTheFirstByte : Prop :=
  ∀ (s u : State) (ys : List Sample), ticksPass ys s = .next u → ys.length ≤ s.par.tBlockRead →
    (∀ k v, k < ys.length → ticksPass (ys.take k) s = .next v → v.queue = []) →
    (∀ (xs : List Sample) (b : Byte) (rest : List Byte), u.queue = b :: rest →
      readBlocking (ys ++ xs) s = .returned (.byte b) { u with queue := rest, outs := u.outs ++ [.result (.byte b)] }) ∧
    (∀ xs : List Sample, u.queue = [] → ys.length = s.par.tBlockRead →
      readBlocking (ys ++ xs) s = .returned .timeout { u with outs := u.outs ++ [.err .timeout u.mode u.pc] }) ∧
    (u.queue = [] → ys.length < s.par.tBlockRead → readBlocking ys s = .waiting u)

/-- The composite `writeBlocking` (44_host_boundary.md R231, R241) while a write is in flight, at any slot, that does not end in the call's first
tick: it returns `Busy` at once and the write in flight goes on as in that tick without the call. The last clause gives the state for a
tick inside the hold. How the call meets the ticks is the model's choice (log entry 15); the two outputs may stand in either order
(log entry 4). -/
def Obligations.BlockingWriteReturnsBusyAtOnce : Prop :=
  ∀ (s : State) (b : Byte) (x : Sample) (xs : List Sample), Inv s → s.mode = .write → x.reset = false →
    (s.par.deadlinesPositive = true → ¬(EdgeSeen s x.scl ∧ s.wrPos = 11#4) →
      (EdgeSeen s x.scl ∨ (s.dlWrite ≠ some 0 ∧ s.dlWrite ≠ some 1)) →
      ∃ u os, bareTick x s = .next u ∧ u.mode = .write ∧ u.wrByte = s.wrByte ∧ u.wrStatus = .active ∧ u.lock = false ∧
        u.outs = s.outs ∧ BusyOutputs u.wrPos os ∧
        writeBlocking b (x :: xs) s = .returned .busy { u with outs := s.outs ++ os }) ∧
    (∀ n, s.wrPos = 0#4 → s.dlInhibit = some (n + 2) → s.portHost = none → s.portReset = false → ∃ os, BusyOutputs 0#4 os ∧
      writeBlocking b (x :: xs) s =
        .returned .busy { s with dlInhibit := some (n + 1), sclPrev := false, outs := s.outs ++ os })

/-- `writeBlocking` tick by tick (44_host_boundary.md R231): its `H.WRITE` and each `H.COLLECT` see the tick's edge and deadline handled; `Busy`
ends the call, `Accepted` starts the wait of T_BLOCK_WRITE ticks, `Blocked` goes on waiting, a status ends it as `Success` or
`WriteFailure`, and a wait used up ends it as `Timeout` with its ERR (60_exceptions.md R261, R264), the lock not taken and the status kept.
A tick with `reset` runs no command (70_reset_and_hazards.md R300) and counts like any other: the `H.WRITE` is issued once. How the call meets
the ticks, and that it waits after such a first tick, is the model's choice (log entry 15). -/
def Obligations.BlockingWriteFollowsItsTicks : Prop :=
  ∀ (s : State) (x : Sample) (xs : List Sample),
    (∀ u, x.reset = false → bareTick x s = .next u →
      (∀ b, u.mode = .read → writeBlocking b (x :: xs) s =
        waitWrite s.par.tBlockWrite xs { writeAdmitted b u with outs := u.outs ++ [.result .accepted] }) ∧
      (∀ b, u.mode = .write → ∃ os, BusyOutputs u.wrPos os ∧
        writeBlocking b (x :: xs) s = .returned .busy { u with outs := u.outs ++ os }) ∧
      (∀ n, u.lock = false → waitWrite (n + 1) (x :: xs) s = waitWrite n xs { u with outs := u.outs ++ [.result .blocked] }) ∧
      (∀ n, u.lock = true → waitWrite (n + 1) (x :: xs) s =
        .returned (if u.wrStatus = .success then .success else .writeFailure)
          { u with lock := false, wrStatus := .inactive, outs := u.outs ++ [.result (.status u.wrStatus)] })) ∧
    (∀ u, x.reset = true → exec .reset { s with portHost := none, portReset := false } = .next u →
      (∀ b, writeBlocking b (x :: xs) s = waitWrite s.par.tBlockWrite xs u) ∧
      (∀ n, waitWrite (n + 1) (x :: xs) s = waitWrite n xs u)) ∧
    waitWrite 0 xs s = .returned .timeout { s with outs := s.outs ++ [.err .timeout s.mode s.pc] }

/-- A waiting `writeBlocking` returns in the tick in which its write ends (44_host_boundary.md R231, 60_exceptions.md R275): `Success` on an
acknowledge, `WriteFailure` on a missing one and on a write deadline. How the call meets the ticks is the model's choice (log entry 15). -/
def Obligations.BlockingWriteEndsWithItsWrite : Prop :=
  ∀ (s : State) (x : Sample) (xs : List Sample) (n : Nat), Inv s → s.mode = .write → x.reset = false →
    (s.wrPos = 11#4 → EdgeSeen s x.scl → ∃ t, t.mode = .read ∧ t.lock = false ∧ t.wrStatus = .inactive ∧
      waitWrite (n + 1) (x :: xs) s = .returned (if x.sda then .writeFailure else .success) t) ∧
    (¬EdgeSeen s x.scl → (s.dlWrite = some 0 ∨ s.dlWrite = some 1) → ∃ t, t.mode = .read ∧ t.lock = false ∧
      t.wrStatus = .inactive ∧ waitWrite (n + 1) (x :: xs) s = .returned .writeFailure t)

/-- A `RESET` while `writeBlocking` waits drops the write without DONE and releases nobody: on a bus that then stays quiet the call ends in its
own `Timeout`, the lock not given (70_reset_and_hazards.md R302). Stated from every state, for a `RESET` in a tick of the wait and for one in
the call's first tick. How the call meets the ticks is the model's choice (log entry 15). -/
def Obligations.ResetLeavesAWaitingHostToItsTimeout : Prop :=
  ∀ (s : State) (x : Sample) (xs : List Sample) (n : Nat), x.reset = true → n ≤ xs.length →
    (∀ y ∈ xs, y.scl = true ∧ y.reset = false) →
    ∃ t, waitWrite (n + 1) (x :: xs) s = .returned .timeout t ∧
      (n = s.par.tBlockWrite → ∀ b, writeBlocking b (x :: xs) s = .returned .timeout t) ∧
      t.mode = .read ∧ t.lock = false ∧ t.wrStatus = .inactive ∧
      t.outs = s.outs ++ List.replicate n (.result .blocked) ++ [.err .timeout .read 0#4]

/-- The host's calls return in bounded time (60_exceptions.md R271: callers "never observe an unbounded hang"): `writeBlocking` within its first
tick and T_BLOCK_WRITE more, `read` within T_BLOCK_READ ticks, whatever the device does and however often or long `reset` is asserted; the
block is then in a state of the invariant. How the calls meet the ticks is the model's choice (log entry 15). -/
def Obligations.BlockingCallsReturnInBoundedTime : Prop :=
  ∀ (s : State) (xs : List Sample), Inv s →
    (∀ b, s.par.tBlockWrite < xs.length → ∃ r t, writeBlocking b xs s = .returned r t ∧ Inv t) ∧
    (s.par.tBlockRead ≤ xs.length → ∃ r t, readBlocking xs s = .returned r t ∧ Inv t)

/-! ### The tick -/

/-- A tick without an enabled falling edge, without a deadline that comes due and without a host command counts and samples, and does nothing
else (40_edge_dispatch.md R120, R122, R126): an edge while `irq_en = 0` leaves no trace but `scl_prev`. -/
def Obligations.QuietTickOnlyCounts : Prop :=
  ∀ (s : State) (c d : Level), s.portReset = false → s.portHost = none → ¬EdgeSeen s c →
    s.dlRead ≠ some 0 → s.dlRead ≠ some 1 → s.dlWrite ≠ some 0 → s.dlWrite ≠ some 1 →
    s.dlInhibit ≠ some 0 → s.dlInhibit ≠ some 1 →
    exec (.tick c d) s = .next (sampled s c)

/-- An enabled falling edge runs the operation of (`mode`, position) with the SDA level of the same tick, after the count
(40_edge_dispatch.md R123, R125, R126). -/
def Obligations.TickHandlesTheEdge : Prop :=
  ∀ (s u : State) (c d : Level) (i : Instr), s.portReset = false → s.portHost = none → EdgeSeen s c →
    edgeInstr s.mode s.pc (sdaLevel s d) = .ok i → exec i (sampled s c) = .next u →
    u.dlRead ≠ some 0 → u.dlWrite ≠ some 0 → u.dlInhibit ≠ some 0 →
    exec (.tick c d) s = .next u

/-- A deadline fires in the tick that counts it to 0, unless an edge of that tick cancels it (40_edge_dispatch.md R126, 43_timeouts.md R212). -/
def Obligations.DeadlineFiresInItsTick : Prop :=
  ∀ (s : State) (c d : Level), s.portReset = false → s.portHost = none → ¬EdgeSeen s c →
    ((s.dlRead = some 1 ∨ s.dlRead = some 0) → exec (.tick c d) s = exec .toRead (sampled s c)) ∧
    (s.dlRead = none → (s.dlWrite = some 1 ∨ s.dlWrite = some 0) → exec (.tick c d) s = exec .toWrite (sampled s c)) ∧
    (s.dlRead = none → s.dlWrite = none → (s.dlInhibit = some 1 ∨ s.dlInhibit = some 0) →
      exec (.tick c d) s = exec .toInhibit (sampled s c))

/-- The tie-break (43_timeouts.md R217): an edge in the very tick in which the deadline it is guarded by would fire wins; the tick is that edge's
operation and no timeout is reported. Stated for every slot of a read and of a write; the first clause gives the state at Data1 to Data8
of a read, for the others the operation's own statement gives it. -/
def Obligations.EdgeWinsTheTie : Prop :=
  ∀ (s : State) (c d : Level), s.portReset = false → s.portHost = none → EdgeSeen s c → s.dlInhibit = none →
    (s.mode = .read → 1 ≤ s.rdPos.toNat → s.rdPos.toNat ≤ 8 → s.dlRead = some 1 → s.dlWrite = none → 0 < s.par.tReadBit →
      ∃ acc : Byte,
        exec (.tick c d) s =
          .next { s with rdAcc := acc, rdPos := s.rdPos + 1#4, dlRead := some s.par.tReadBit, sclPrev := false } ∧
        ∀ j, j < 8 → acc.getLsbD j = if j + 1 = s.rdPos.toNat then sdaLevel s d else s.rdAcc.getLsbD j) ∧
    (∀ i, s.par.deadlinesPositive = true → s.mode = .read → s.dlRead = some 1 → s.dlWrite = none →
      (readOps (sdaLevel s d))[s.rdPos.toNat]? = some i →
      ∃ t, exec (.tick c d) s = .next t ∧ exec i (sampled s c) = .next t ∧ NoTimeout s t) ∧
    (∀ i, s.par.deadlinesPositive = true → s.mode = .write → s.dlWrite = some 1 → s.dlRead = none →
      (writeOps (sdaLevel s d))[s.wrPos.toNat]? = some i →
      ∃ t, exec (.tick c d) s = .next t ∧ exec i (sampled s c) = .next t ∧ NoTimeout s t)

/-- The host command of a tick runs last, on the state its edge and its deadline have left (40_edge_dispatch.md R126, 60_exceptions.md R275): a
tick with a command is the tick without it, then the command's own operation. -/
def Obligations.HostCommandRunsLast : Prop :=
  ∀ (s : State) (c d : Level) (h : HostCmd), s.portReset = false →
    (∀ u, exec (.tick c d) { s with portHost := none } = .next u →
      exec (.tick c d) { s with portHost := some h } = exec h.toInstr u) ∧
    (∀ r, exec (.tick c d) { s with portHost := none } = .fault r →
      exec (.tick c d) { s with portHost := some h } = .fault r)

/-- In every state of the invariant a tick completes, whatever the device does and whatever the host asks (40_edge_dispatch.md R126: "Enabled
when: always"). -/
def Obligations.TickAlwaysCompletes : Prop :=
  ∀ (s : State) (c d : Level), Inv s → ∃ t, exec (.tick c d) s = .next t

/-- Edges are lost during the inhibition hold (40_edge_dispatch.md R122, 70_reset_and_hazards.md R307): until the hold's last tick nothing happens but
the count, whatever the device does, and SCL reads 0. -/
def Obligations.EdgesAreLostDuringTheHold : Prop :=
  ∀ (s : State) (c d : Level) (n : Nat), Inv s → InHold s → s.portReset = false → s.portHost = none →
    s.dlInhibit = some (n + 2) →
    exec (.tick c d) s = .next { s with dlInhibit := some (n + 1), sclPrev := false }

/-- Between ticks no armed deadline is at 0 (40_edge_dispatch.md R126, corner cases (a) and (b)). -/
def Obligations.TicksLeaveNoDeadlineAtZero : Prop :=
  ∀ (s t : State) (c d : Level), Inv s → DeadlinesPending s → s.par.deadlinesPositive = true →
    exec (.tick c d) s = .next t → DeadlinesPending t

/-! ### Invariants and whole-machine rules -/

/-- The reset state satisfies the invariant (70_reset_and_hazards.md R301). -/
def Obligations.ResetSatisfiesTheInvariant : Prop := Inv State.reset ∧ DeadlinesPending State.reset ∧ Idle State.reset

/-- Every step keeps the invariant of 10_state.md R43 to R48, from every state that satisfies it and whatever event comes.
Events as a list: log entry 2. -/
def Obligations.EveryStepKeepsTheInvariant : Prop := ∀ s t : State, Inv s → step s = .next t → Inv t

/-- No event the spec admits stops the block: from a state of the invariant it neither faults nor is refused (60_exceptions.md R260: "An error
never stops the block"; the faults of R17 are unreachable).
Events as a list: log entry 2. -/
def Obligations.AdmittedEventsNeverStopTheBlock : Prop :=
  ∀ (s : State) (e : Event) (rest : List Event), Inv s → s.events = e :: rest → admitted e s = true → ∃ t, step s = .next t

/-- `irq_en = 0` if and only if the inhibition hold is in progress, and so no tick dispatches `WR.START` (10_state.md R49). -/
def Obligations.InterruptOffExactlyInTheHold : Prop :=
  ∀ s : State, Inv s → (s.irqEn = false ↔ InHold s) ∧
    ∀ (c d d' : Level), EdgeSeen s c → edgeInstr s.mode s.pc d ≠ .ok (.wrStart d')

/-- `irq_en` is written by `H.WRITE`, to 0, the host's or an abort's, and by `TO.INHIBIT`, to 1, and by no other operation
(60_exceptions.md R273). -/
def Obligations.InterruptEnableWriters : Prop :=
  ∀ (i : Instr) (s t : State), singleEvent i = true → exec i s = .next t → t.irqEn ≠ s.irqEn →
    (i = .toInhibit ∧ t.irqEn = true) ∨ (t.irqEn = false ∧ s.mode = .read ∧ t.mode = .write ∧
      ((∃ b, i = .hWrite b) ∨ (∃ d, i = .rdParity d) ∨ i = .rdStop false ∨ i = .toRead))

/-- `mode` becomes Write only by an admitted write, which drops the read and starts the hold, and Read only by `Finish`, which records the
completion, emits DONE and gives the lock (10_state.md R28). -/
def Obligations.ModeChangesOnlyByWriteAndFinish : Prop :=
  ∀ (i : Instr) (s t : State), singleEvent i = true → exec i s = .next t →
    (s.mode = .read → t.mode = .write →
      t.rdPos = 0#4 ∧ t.wrPos = 0#4 ∧ t.wrStatus = .active ∧ t.lock = false ∧ t.irqEn = false ∧
      t.dlRead = none ∧ t.dlInhibit = some s.par.tInhibit) ∧
    (s.mode = .write → t.mode = .read →
      ∃ c, t.outs.getLast? = some (.done c) ∧ t.wrStatus = completionStatus c ∧ t.lock = true ∧ t.rdPos = 0#4 ∧ t.wrPos = 0#4)

/-- The three transitions of `lock` and no others (20_memory.md R75): given by `Finish`, taken by an admitted write or by `H.COLLECT`. -/
def Obligations.LockTransitions : Prop :=
  ∀ (i : Instr) (s t : State), singleEvent i = true → exec i s = .next t →
    (s.lock = false → t.lock = true → s.mode = .write ∧ t.mode = .read) ∧
    (s.lock = true → t.lock = false → i = .hCollect ∨ (s.mode = .read ∧ t.mode = .write))

/-- A byte is delivered only by an accepted Stop slot, and it is the accumulator's (41_read_frame.md R158; 60_exceptions.md R271: the consumer
"only ever sees successfully validated bytes"). -/
def Obligations.BytesComeOnlyFromAcceptedStops : Prop :=
  ∀ (i : Instr) (s t : State) (b : Byte), singleEvent i = true → exec i s = .next t →
    (Output.rx b ∈ t.outs.drop s.outs.length ∨ Output.cb b ∈ t.outs.drop s.outs.length) →
    i = .rdStop true ∧ s.mode = .read ∧ s.rdPos = 10#4 ∧ b = s.rdAcc

/-- No operation changes the parameters (00_scope.md R10: "fixed per instance, not run-time writable") or the inputs still to come, and outputs
are only added. That the events still to come are a list in the state is the model's choice (log entry 2), and so is the list of outputs
that is only added to (log entry 4). -/
def Obligations.ParametersFixedOutputsGrow : Prop :=
  ∀ (i : Instr) (s t : State), exec i s = .next t →
    t.par = s.par ∧ t.events = s.events ∧ ∃ new, t.outs = s.outs ++ new

/-! ### Parity, frame words, lines -/

/-- `par8` and `P` (00_scope.md R16). -/
def Obligations.ParityBitOfAByte : Prop :=
  ∀ v : Byte, (par8 v = true ↔ bitCount v % 2 = 1) ∧ (wireParity v = true ↔ bitCount v % 2 = 0)

/-- Frame words (30_encoding.md R93) and the two spellings of a read frame (R105). -/
def Obligations.FrameWords : Prop :=
  ∀ (b : Byte) (a : Level),
    (readFrameWord b).toNat = 1024 + 512 * (wireParity b).toNat + 2 * b.toNat ∧
    (writeFrameWord b a).toNat = 2048 * a.toNat + (readFrameWord b).toNat ∧
    rxFrame b = rxRaw (readFrameWord b)

/-- The line space (20_memory.md R60 to R62): two addresses, and a resolved level that either side can pull low. -/
def Obligations.LineResolution : Prop :=
  ∀ (s : State) (dev : Line → Level),
    s.memRead 0 dev = some (sclLevel s (dev .scl)) ∧ s.memRead 1 dev = some (sdaLevel s (dev .sda)) ∧
    ∀ addr, 2 ≤ addr → s.memRead addr dev = none

/-! ### Whole frames and bounds

The runs take their events from the model's list of inputs, with what accompanies a tick on the ports: the model's choice (log entries 2
and 5). -/

/-- Read round trip (41_read_frame.md R158): from idle, the eleven edges of `RXFRAME b` emit exactly one `RX(b)` and no ERR of the read side, hand
the byte on, and leave every register as before the frame.
Events as a list: log entry 2. -/
def Obligations.ReadRoundTrip : Prop :=
  ∀ (s : State) (b : Byte) (rest : List Event), Inv s → s.mode = .read → s.rdPos = 0#4 →
    s.events = (rxFrame b).map TraceLine.event ++ rest →
    Host.Core.run Sys2Proof.core 11 s = .next (deliver b
      { s with
        events := rest, portHost := none, portReset := false
        resendCnt := (if s.par.resendMax = none then s.resendCnt else 0), outs := s.outs ++ [.rx b] })

/-- Write round trip (42_write_frame.md R192): from idle, `W b` and `TXCLK a` end in DONE Success (a = 0) or ERR AckFailure and DONE Failure (a = 1),
and the level driven on SDA in slot k is bit k of `RF(b)`.
Events as a list: log entry 2. -/
def Obligations.WriteRoundTrip : Prop :=
  ∀ (s : State) (b : Byte) (a : Level) (rest : List Event), Inv s → s.mode = .read → s.rdPos = 0#4 →
    s.events = (TraceLine.W b :: txClk a).map TraceLine.event ++ rest →
    Host.Core.run Sys2Proof.core 13 s = .next { s with
      wrByte := b, wrStatus := (if a then .failure else .success), lock := true, sclOut := true, sdaOut := true
      events := rest, portHost := none, portReset := false
      outs := s.outs ++ [.result .accepted] ++
        (if a then [.err .ackFailure .write 11#4, .done .failure] else [.done .success]) } ∧
    ∀ k, k ≤ 10 → ∃ u, Host.Core.run Sys2Proof.core (k + 2) s = .next u ∧ u.drive .sda = (readFrameWord b).getLsbD k

/-- The hold lasts exactly as many ticks as its deadline has left, T_INHIBIT from `H.WRITE` on, whatever the device and the host do
(70_reset_and_hazards.md R323, 42_write_frame.md R174).
Events as a list: log entry 2. -/
def Obligations.HoldLastsExactly : Prop :=
  ∀ (s : State) (n : Nat), Inv s → InHold s → s.dlInhibit = some n → 0 < n → n ≤ s.events.length →
    TicksOnly (s.events.take n) →
    (∀ k, k < n → ∃ t, Host.Core.run Sys2Proof.core k s = .next t ∧ InHold t ∧ t.dlInhibit = some (n - k)) ∧
    ∃ t, Host.Core.run Sys2Proof.core n s = .next t ∧ t.mode = .write ∧ t.wrPos = 1#4 ∧ t.irqEn = true ∧
      t.dlInhibit = none ∧ t.dlWrite = some s.par.tWriteFirst

/-- An admitted write ends in DONE within T_INHIBIT + T_WRITE_FIRST + 10 × T_WRITE_BIT ticks, whatever the device and the host do
(43_timeouts.md R219, 20_memory.md R77).
Events as a list: log entry 2. -/
def Obligations.WriteFinishesInBoundedTime : Prop :=
  ∀ s : State, Inv s → DeadlinesPending s → s.par.deadlinesPositive = true → s.mode = .write →
    s.par.tInhibit + s.par.tWriteFirst + 10 * s.par.tWriteBit ≤ s.events.length →
    TicksOnly (s.events.take (s.par.tInhibit + s.par.tWriteFirst + 10 * s.par.tWriteBit)) →
    ∃ k t, k ≤ s.par.tInhibit + s.par.tWriteFirst + 10 * s.par.tWriteBit ∧
      Host.Core.run Sys2Proof.core k s = .next t ∧ ∃ c, Output.done c ∈ t.outs.drop s.outs.length

/-- A read frame in progress ends within 10 × T_READ_BIT ticks, whatever the device and the host do (43_timeouts.md R219).
Events as a list: log entry 2. -/
def Obligations.ReadFrameEndsInBoundedTime : Prop :=
  ∀ s : State, Inv s → DeadlinesPending s → s.par.deadlinesPositive = true → s.mode = .read → s.rdPos ≠ 0#4 →
    10 * s.par.tReadBit ≤ s.events.length → TicksOnly (s.events.take (10 * s.par.tReadBit)) →
    ∃ k t, k ≤ 10 * s.par.tReadBit ∧ Host.Core.run Sys2Proof.core k s = .next t ∧ t.rdPos = 0#4
end

