-- ==== Sys2Proof/Laws/Decode.lean ====
section
/-! SUPPORT. Fields of an event word, and what the decoder reads from a word put together from its fields. -/

namespace Sys2Proof

namespace EventWord

@[simp] theorem kind_make (k : BitVec 4) (m : Mode) (p : Slot) (o : Byte) : kind (make k m p o) = k := by
  apply BitVec.eq_of_getLsbD_eq
  intro i hi
  interval_cases i <;> simp [kind, make]

@[simp] theorem mode_make (k : BitVec 4) (m : Mode) (p : Slot) (o : Byte) : mode (make k m p o) = m := by
  cases m <;> simp [mode, make, modeBit]

@[simp] theorem slot_make (k : BitVec 4) (m : Mode) (p : Slot) (o : Byte) : slot (make k m p o) = p := by
  apply BitVec.eq_of_getLsbD_eq
  intro i hi
  interval_cases i <;> simp [slot, make]

@[simp] theorem operand_make (k : BitVec 4) (m : Mode) (p : Slot) (o : Byte) : operand (make k m p o) = o := by
  apply BitVec.eq_of_getLsbD_eq
  intro i hi
  interval_cases i <;> simp [operand, make]

end EventWord

/-- What the decoder reads from a word, by its fields: EDGE words through mode and slot, all others through `kind` alone. -/
theorem decodeWord_make_edge (m : Mode) (p : Slot) (o : Byte) :
    decodeWord (EventWord.make 0#4 m p o) = edgeInstr m p (o.getLsbD 0) := by
  simp [decodeWord]

@[simp] theorem bitOperand_bit (d : Level) : (bitOperand d).getLsbD 0 = d := by cases d <;> rfl

@[simp] theorem tickOperand_scl (c d : Level) : (tickOperand c d).getLsbD 0 = c := by cases c <;> cases d <;> rfl

@[simp] theorem tickOperand_sda (c d : Level) : (tickOperand c d).getLsbD 1 = d := by cases c <;> cases d <;> rfl

end Sys2Proof
end

