-- ==== Sys2Proof/Laws/State.lean ====
section
/-! SUPPORT. What each named update does to each field of the state, true by rfl, so that no later proof unfolds a record update. -/

namespace Sys2Proof.Machine.State

variable (s : State)

/-! ### Updates that are another one -/

@[simp] theorem arm_eq (d : Deadline) (n : Nat) : s.arm d n = s.setDeadline d (some n) := rfl
@[simp] theorem cancel_eq (d : Deadline) : s.cancel d = s.setDeadline d none := rfl
@[simp] theorem raise_eq (k : ErrorKind) : s.raise k = s.emit (.err k s.mode s.pc) := rfl

/-! ### The position of the current mode -/

theorem pc_of_read (h : s.mode = .read) : s.pc = s.rdPos := by simp [pc, h]
theorem pc_of_write (h : s.mode = .write) : s.pc = s.wrPos := by simp [pc, h]

/-! ### `s.emit o` -/

@[simp] theorem emit_mode (o : Output) : (s.emit o).mode = s.mode := rfl
@[simp] theorem emit_rdAcc (o : Output) : (s.emit o).rdAcc = s.rdAcc := rfl
@[simp] theorem emit_rdPos (o : Output) : (s.emit o).rdPos = s.rdPos := rfl
@[simp] theorem emit_wrByte (o : Output) : (s.emit o).wrByte = s.wrByte := rfl
@[simp] theorem emit_wrPos (o : Output) : (s.emit o).wrPos = s.wrPos := rfl
@[simp] theorem emit_wrStatus (o : Output) : (s.emit o).wrStatus = s.wrStatus := rfl
@[simp] theorem emit_lock (o : Output) : (s.emit o).lock = s.lock := rfl
@[simp] theorem emit_irqEn (o : Output) : (s.emit o).irqEn = s.irqEn := rfl
@[simp] theorem emit_sclDir (o : Output) : (s.emit o).sclDir = s.sclDir := rfl
@[simp] theorem emit_sdaDir (o : Output) : (s.emit o).sdaDir = s.sdaDir := rfl
@[simp] theorem emit_sclOut (o : Output) : (s.emit o).sclOut = s.sclOut := rfl
@[simp] theorem emit_sdaOut (o : Output) : (s.emit o).sdaOut = s.sdaOut := rfl
@[simp] theorem emit_sclPrev (o : Output) : (s.emit o).sclPrev = s.sclPrev := rfl
@[simp] theorem emit_dlRead (o : Output) : (s.emit o).dlRead = s.dlRead := rfl
@[simp] theorem emit_dlWrite (o : Output) : (s.emit o).dlWrite = s.dlWrite := rfl
@[simp] theorem emit_dlInhibit (o : Output) : (s.emit o).dlInhibit = s.dlInhibit := rfl
@[simp] theorem emit_resendCnt (o : Output) : (s.emit o).resendCnt = s.resendCnt := rfl
@[simp] theorem emit_cb (o : Output) : (s.emit o).cb = s.cb := rfl
@[simp] theorem emit_cbEnabled (o : Output) : (s.emit o).cbEnabled = s.cbEnabled := rfl
@[simp] theorem emit_queue (o : Output) : (s.emit o).queue = s.queue := rfl
@[simp] theorem emit_par (o : Output) : (s.emit o).par = s.par := rfl
@[simp] theorem emit_events (o : Output) : (s.emit o).events = s.events := rfl
@[simp] theorem emit_portHost (o : Output) : (s.emit o).portHost = s.portHost := rfl
@[simp] theorem emit_portReset (o : Output) : (s.emit o).portReset = s.portReset := rfl
@[simp] theorem emit_outs (o : Output) : (s.emit o).outs = s.outs ++ [o] := rfl
@[simp] theorem emit_allocDraws (o : Output) : (s.emit o).allocDraws = s.allocDraws := rfl
@[simp] theorem emit_allocCnt (o : Output) : (s.emit o).allocCnt = s.allocCnt := rfl

/-! ### `s.setDeadline .read v` -/

@[simp] theorem setDeadline_read_mode (v : Option Nat) : (s.setDeadline .read v).mode = s.mode := rfl
@[simp] theorem setDeadline_read_rdAcc (v : Option Nat) : (s.setDeadline .read v).rdAcc = s.rdAcc := rfl
@[simp] theorem setDeadline_read_rdPos (v : Option Nat) : (s.setDeadline .read v).rdPos = s.rdPos := rfl
@[simp] theorem setDeadline_read_wrByte (v : Option Nat) : (s.setDeadline .read v).wrByte = s.wrByte := rfl
@[simp] theorem setDeadline_read_wrPos (v : Option Nat) : (s.setDeadline .read v).wrPos = s.wrPos := rfl
@[simp] theorem setDeadline_read_wrStatus (v : Option Nat) : (s.setDeadline .read v).wrStatus = s.wrStatus := rfl
@[simp] theorem setDeadline_read_lock (v : Option Nat) : (s.setDeadline .read v).lock = s.lock := rfl
@[simp] theorem setDeadline_read_irqEn (v : Option Nat) : (s.setDeadline .read v).irqEn = s.irqEn := rfl
@[simp] theorem setDeadline_read_sclDir (v : Option Nat) : (s.setDeadline .read v).sclDir = s.sclDir := rfl
@[simp] theorem setDeadline_read_sdaDir (v : Option Nat) : (s.setDeadline .read v).sdaDir = s.sdaDir := rfl
@[simp] theorem setDeadline_read_sclOut (v : Option Nat) : (s.setDeadline .read v).sclOut = s.sclOut := rfl
@[simp] theorem setDeadline_read_sdaOut (v : Option Nat) : (s.setDeadline .read v).sdaOut = s.sdaOut := rfl
@[simp] theorem setDeadline_read_sclPrev (v : Option Nat) : (s.setDeadline .read v).sclPrev = s.sclPrev := rfl
@[simp] theorem setDeadline_read_dlRead (v : Option Nat) : (s.setDeadline .read v).dlRead = v := rfl
@[simp] theorem setDeadline_read_dlWrite (v : Option Nat) : (s.setDeadline .read v).dlWrite = s.dlWrite := rfl
@[simp] theorem setDeadline_read_dlInhibit (v : Option Nat) : (s.setDeadline .read v).dlInhibit = s.dlInhibit := rfl
@[simp] theorem setDeadline_read_resendCnt (v : Option Nat) : (s.setDeadline .read v).resendCnt = s.resendCnt := rfl
@[simp] theorem setDeadline_read_cb (v : Option Nat) : (s.setDeadline .read v).cb = s.cb := rfl
@[simp] theorem setDeadline_read_cbEnabled (v : Option Nat) : (s.setDeadline .read v).cbEnabled = s.cbEnabled := rfl
@[simp] theorem setDeadline_read_queue (v : Option Nat) : (s.setDeadline .read v).queue = s.queue := rfl
@[simp] theorem setDeadline_read_par (v : Option Nat) : (s.setDeadline .read v).par = s.par := rfl
@[simp] theorem setDeadline_read_events (v : Option Nat) : (s.setDeadline .read v).events = s.events := rfl
@[simp] theorem setDeadline_read_portHost (v : Option Nat) : (s.setDeadline .read v).portHost = s.portHost := rfl
@[simp] theorem setDeadline_read_portReset (v : Option Nat) : (s.setDeadline .read v).portReset = s.portReset := rfl
@[simp] theorem setDeadline_read_outs (v : Option Nat) : (s.setDeadline .read v).outs = s.outs := rfl
@[simp] theorem setDeadline_read_allocDraws (v : Option Nat) : (s.setDeadline .read v).allocDraws = s.allocDraws := rfl
@[simp] theorem setDeadline_read_allocCnt (v : Option Nat) : (s.setDeadline .read v).allocCnt = s.allocCnt := rfl

/-! ### `s.setDeadline .write v` -/

@[simp] theorem setDeadline_write_mode (v : Option Nat) : (s.setDeadline .write v).mode = s.mode := rfl
@[simp] theorem setDeadline_write_rdAcc (v : Option Nat) : (s.setDeadline .write v).rdAcc = s.rdAcc := rfl
@[simp] theorem setDeadline_write_rdPos (v : Option Nat) : (s.setDeadline .write v).rdPos = s.rdPos := rfl
@[simp] theorem setDeadline_write_wrByte (v : Option Nat) : (s.setDeadline .write v).wrByte = s.wrByte := rfl
@[simp] theorem setDeadline_write_wrPos (v : Option Nat) : (s.setDeadline .write v).wrPos = s.wrPos := rfl
@[simp] theorem setDeadline_write_wrStatus (v : Option Nat) : (s.setDeadline .write v).wrStatus = s.wrStatus := rfl
@[simp] theorem setDeadline_write_lock (v : Option Nat) : (s.setDeadline .write v).lock = s.lock := rfl
@[simp] theorem setDeadline_write_irqEn (v : Option Nat) : (s.setDeadline .write v).irqEn = s.irqEn := rfl
@[simp] theorem setDeadline_write_sclDir (v : Option Nat) : (s.setDeadline .write v).sclDir = s.sclDir := rfl
@[simp] theorem setDeadline_write_sdaDir (v : Option Nat) : (s.setDeadline .write v).sdaDir = s.sdaDir := rfl
@[simp] theorem setDeadline_write_sclOut (v : Option Nat) : (s.setDeadline .write v).sclOut = s.sclOut := rfl
@[simp] theorem setDeadline_write_sdaOut (v : Option Nat) : (s.setDeadline .write v).sdaOut = s.sdaOut := rfl
@[simp] theorem setDeadline_write_sclPrev (v : Option Nat) : (s.setDeadline .write v).sclPrev = s.sclPrev := rfl
@[simp] theorem setDeadline_write_dlRead (v : Option Nat) : (s.setDeadline .write v).dlRead = s.dlRead := rfl
@[simp] theorem setDeadline_write_dlWrite (v : Option Nat) : (s.setDeadline .write v).dlWrite = v := rfl
@[simp] theorem setDeadline_write_dlInhibit (v : Option Nat) : (s.setDeadline .write v).dlInhibit = s.dlInhibit := rfl
@[simp] theorem setDeadline_write_resendCnt (v : Option Nat) : (s.setDeadline .write v).resendCnt = s.resendCnt := rfl
@[simp] theorem setDeadline_write_cb (v : Option Nat) : (s.setDeadline .write v).cb = s.cb := rfl
@[simp] theorem setDeadline_write_cbEnabled (v : Option Nat) : (s.setDeadline .write v).cbEnabled = s.cbEnabled := rfl
@[simp] theorem setDeadline_write_queue (v : Option Nat) : (s.setDeadline .write v).queue = s.queue := rfl
@[simp] theorem setDeadline_write_par (v : Option Nat) : (s.setDeadline .write v).par = s.par := rfl
@[simp] theorem setDeadline_write_events (v : Option Nat) : (s.setDeadline .write v).events = s.events := rfl
@[simp] theorem setDeadline_write_portHost (v : Option Nat) : (s.setDeadline .write v).portHost = s.portHost := rfl
@[simp] theorem setDeadline_write_portReset (v : Option Nat) : (s.setDeadline .write v).portReset = s.portReset := rfl
@[simp] theorem setDeadline_write_outs (v : Option Nat) : (s.setDeadline .write v).outs = s.outs := rfl
@[simp] theorem setDeadline_write_allocDraws (v : Option Nat) : (s.setDeadline .write v).allocDraws = s.allocDraws := rfl
@[simp] theorem setDeadline_write_allocCnt (v : Option Nat) : (s.setDeadline .write v).allocCnt = s.allocCnt := rfl

/-! ### `s.setDeadline .inhibit v` -/

@[simp] theorem setDeadline_inhibit_mode (v : Option Nat) : (s.setDeadline .inhibit v).mode = s.mode := rfl
@[simp] theorem setDeadline_inhibit_rdAcc (v : Option Nat) : (s.setDeadline .inhibit v).rdAcc = s.rdAcc := rfl
@[simp] theorem setDeadline_inhibit_rdPos (v : Option Nat) : (s.setDeadline .inhibit v).rdPos = s.rdPos := rfl
@[simp] theorem setDeadline_inhibit_wrByte (v : Option Nat) : (s.setDeadline .inhibit v).wrByte = s.wrByte := rfl
@[simp] theorem setDeadline_inhibit_wrPos (v : Option Nat) : (s.setDeadline .inhibit v).wrPos = s.wrPos := rfl
@[simp] theorem setDeadline_inhibit_wrStatus (v : Option Nat) : (s.setDeadline .inhibit v).wrStatus = s.wrStatus := rfl
@[simp] theorem setDeadline_inhibit_lock (v : Option Nat) : (s.setDeadline .inhibit v).lock = s.lock := rfl
@[simp] theorem setDeadline_inhibit_irqEn (v : Option Nat) : (s.setDeadline .inhibit v).irqEn = s.irqEn := rfl
@[simp] theorem setDeadline_inhibit_sclDir (v : Option Nat) : (s.setDeadline .inhibit v).sclDir = s.sclDir := rfl
@[simp] theorem setDeadline_inhibit_sdaDir (v : Option Nat) : (s.setDeadline .inhibit v).sdaDir = s.sdaDir := rfl
@[simp] theorem setDeadline_inhibit_sclOut (v : Option Nat) : (s.setDeadline .inhibit v).sclOut = s.sclOut := rfl
@[simp] theorem setDeadline_inhibit_sdaOut (v : Option Nat) : (s.setDeadline .inhibit v).sdaOut = s.sdaOut := rfl
@[simp] theorem setDeadline_inhibit_sclPrev (v : Option Nat) : (s.setDeadline .inhibit v).sclPrev = s.sclPrev := rfl
@[simp] theorem setDeadline_inhibit_dlRead (v : Option Nat) : (s.setDeadline .inhibit v).dlRead = s.dlRead := rfl
@[simp] theorem setDeadline_inhibit_dlWrite (v : Option Nat) : (s.setDeadline .inhibit v).dlWrite = s.dlWrite := rfl
@[simp] theorem setDeadline_inhibit_dlInhibit (v : Option Nat) : (s.setDeadline .inhibit v).dlInhibit = v := rfl
@[simp] theorem setDeadline_inhibit_resendCnt (v : Option Nat) : (s.setDeadline .inhibit v).resendCnt = s.resendCnt := rfl
@[simp] theorem setDeadline_inhibit_cb (v : Option Nat) : (s.setDeadline .inhibit v).cb = s.cb := rfl
@[simp] theorem setDeadline_inhibit_cbEnabled (v : Option Nat) : (s.setDeadline .inhibit v).cbEnabled = s.cbEnabled := rfl
@[simp] theorem setDeadline_inhibit_queue (v : Option Nat) : (s.setDeadline .inhibit v).queue = s.queue := rfl
@[simp] theorem setDeadline_inhibit_par (v : Option Nat) : (s.setDeadline .inhibit v).par = s.par := rfl
@[simp] theorem setDeadline_inhibit_events (v : Option Nat) : (s.setDeadline .inhibit v).events = s.events := rfl
@[simp] theorem setDeadline_inhibit_portHost (v : Option Nat) : (s.setDeadline .inhibit v).portHost = s.portHost := rfl
@[simp] theorem setDeadline_inhibit_portReset (v : Option Nat) : (s.setDeadline .inhibit v).portReset = s.portReset := rfl
@[simp] theorem setDeadline_inhibit_outs (v : Option Nat) : (s.setDeadline .inhibit v).outs = s.outs := rfl
@[simp] theorem setDeadline_inhibit_allocDraws (v : Option Nat) : (s.setDeadline .inhibit v).allocDraws = s.allocDraws := rfl
@[simp] theorem setDeadline_inhibit_allocCnt (v : Option Nat) : (s.setDeadline .inhibit v).allocCnt = s.allocCnt := rfl

/-! ### `s.lineWrite .scl v` -/

@[simp] theorem lineWrite_scl_mode (v : Level) : (s.lineWrite .scl v).mode = s.mode := rfl
@[simp] theorem lineWrite_scl_rdAcc (v : Level) : (s.lineWrite .scl v).rdAcc = s.rdAcc := rfl
@[simp] theorem lineWrite_scl_rdPos (v : Level) : (s.lineWrite .scl v).rdPos = s.rdPos := rfl
@[simp] theorem lineWrite_scl_wrByte (v : Level) : (s.lineWrite .scl v).wrByte = s.wrByte := rfl
@[simp] theorem lineWrite_scl_wrPos (v : Level) : (s.lineWrite .scl v).wrPos = s.wrPos := rfl
@[simp] theorem lineWrite_scl_wrStatus (v : Level) : (s.lineWrite .scl v).wrStatus = s.wrStatus := rfl
@[simp] theorem lineWrite_scl_lock (v : Level) : (s.lineWrite .scl v).lock = s.lock := rfl
@[simp] theorem lineWrite_scl_irqEn (v : Level) : (s.lineWrite .scl v).irqEn = s.irqEn := rfl
@[simp] theorem lineWrite_scl_sclDir (v : Level) : (s.lineWrite .scl v).sclDir = s.sclDir := rfl
@[simp] theorem lineWrite_scl_sdaDir (v : Level) : (s.lineWrite .scl v).sdaDir = s.sdaDir := rfl
@[simp] theorem lineWrite_scl_sclOut (v : Level) : (s.lineWrite .scl v).sclOut = v := rfl
@[simp] theorem lineWrite_scl_sdaOut (v : Level) : (s.lineWrite .scl v).sdaOut = s.sdaOut := rfl
@[simp] theorem lineWrite_scl_sclPrev (v : Level) : (s.lineWrite .scl v).sclPrev = s.sclPrev := rfl
@[simp] theorem lineWrite_scl_dlRead (v : Level) : (s.lineWrite .scl v).dlRead = s.dlRead := rfl
@[simp] theorem lineWrite_scl_dlWrite (v : Level) : (s.lineWrite .scl v).dlWrite = s.dlWrite := rfl
@[simp] theorem lineWrite_scl_dlInhibit (v : Level) : (s.lineWrite .scl v).dlInhibit = s.dlInhibit := rfl
@[simp] theorem lineWrite_scl_resendCnt (v : Level) : (s.lineWrite .scl v).resendCnt = s.resendCnt := rfl
@[simp] theorem lineWrite_scl_cb (v : Level) : (s.lineWrite .scl v).cb = s.cb := rfl
@[simp] theorem lineWrite_scl_cbEnabled (v : Level) : (s.lineWrite .scl v).cbEnabled = s.cbEnabled := rfl
@[simp] theorem lineWrite_scl_queue (v : Level) : (s.lineWrite .scl v).queue = s.queue := rfl
@[simp] theorem lineWrite_scl_par (v : Level) : (s.lineWrite .scl v).par = s.par := rfl
@[simp] theorem lineWrite_scl_events (v : Level) : (s.lineWrite .scl v).events = s.events := rfl
@[simp] theorem lineWrite_scl_portHost (v : Level) : (s.lineWrite .scl v).portHost = s.portHost := rfl
@[simp] theorem lineWrite_scl_portReset (v : Level) : (s.lineWrite .scl v).portReset = s.portReset := rfl
@[simp] theorem lineWrite_scl_outs (v : Level) : (s.lineWrite .scl v).outs = s.outs := rfl
@[simp] theorem lineWrite_scl_allocDraws (v : Level) : (s.lineWrite .scl v).allocDraws = s.allocDraws := rfl
@[simp] theorem lineWrite_scl_allocCnt (v : Level) : (s.lineWrite .scl v).allocCnt = s.allocCnt := rfl

/-! ### `s.lineWrite .sda v` -/

@[simp] theorem lineWrite_sda_mode (v : Level) : (s.lineWrite .sda v).mode = s.mode := rfl
@[simp] theorem lineWrite_sda_rdAcc (v : Level) : (s.lineWrite .sda v).rdAcc = s.rdAcc := rfl
@[simp] theorem lineWrite_sda_rdPos (v : Level) : (s.lineWrite .sda v).rdPos = s.rdPos := rfl
@[simp] theorem lineWrite_sda_wrByte (v : Level) : (s.lineWrite .sda v).wrByte = s.wrByte := rfl
@[simp] theorem lineWrite_sda_wrPos (v : Level) : (s.lineWrite .sda v).wrPos = s.wrPos := rfl
@[simp] theorem lineWrite_sda_wrStatus (v : Level) : (s.lineWrite .sda v).wrStatus = s.wrStatus := rfl
@[simp] theorem lineWrite_sda_lock (v : Level) : (s.lineWrite .sda v).lock = s.lock := rfl
@[simp] theorem lineWrite_sda_irqEn (v : Level) : (s.lineWrite .sda v).irqEn = s.irqEn := rfl
@[simp] theorem lineWrite_sda_sclDir (v : Level) : (s.lineWrite .sda v).sclDir = s.sclDir := rfl
@[simp] theorem lineWrite_sda_sdaDir (v : Level) : (s.lineWrite .sda v).sdaDir = s.sdaDir := rfl
@[simp] theorem lineWrite_sda_sclOut (v : Level) : (s.lineWrite .sda v).sclOut = s.sclOut := rfl
@[simp] theorem lineWrite_sda_sdaOut (v : Level) : (s.lineWrite .sda v).sdaOut = v := rfl
@[simp] theorem lineWrite_sda_sclPrev (v : Level) : (s.lineWrite .sda v).sclPrev = s.sclPrev := rfl
@[simp] theorem lineWrite_sda_dlRead (v : Level) : (s.lineWrite .sda v).dlRead = s.dlRead := rfl
@[simp] theorem lineWrite_sda_dlWrite (v : Level) : (s.lineWrite .sda v).dlWrite = s.dlWrite := rfl
@[simp] theorem lineWrite_sda_dlInhibit (v : Level) : (s.lineWrite .sda v).dlInhibit = s.dlInhibit := rfl
@[simp] theorem lineWrite_sda_resendCnt (v : Level) : (s.lineWrite .sda v).resendCnt = s.resendCnt := rfl
@[simp] theorem lineWrite_sda_cb (v : Level) : (s.lineWrite .sda v).cb = s.cb := rfl
@[simp] theorem lineWrite_sda_cbEnabled (v : Level) : (s.lineWrite .sda v).cbEnabled = s.cbEnabled := rfl
@[simp] theorem lineWrite_sda_queue (v : Level) : (s.lineWrite .sda v).queue = s.queue := rfl
@[simp] theorem lineWrite_sda_par (v : Level) : (s.lineWrite .sda v).par = s.par := rfl
@[simp] theorem lineWrite_sda_events (v : Level) : (s.lineWrite .sda v).events = s.events := rfl
@[simp] theorem lineWrite_sda_portHost (v : Level) : (s.lineWrite .sda v).portHost = s.portHost := rfl
@[simp] theorem lineWrite_sda_portReset (v : Level) : (s.lineWrite .sda v).portReset = s.portReset := rfl
@[simp] theorem lineWrite_sda_outs (v : Level) : (s.lineWrite .sda v).outs = s.outs := rfl
@[simp] theorem lineWrite_sda_allocDraws (v : Level) : (s.lineWrite .sda v).allocDraws = s.allocDraws := rfl
@[simp] theorem lineWrite_sda_allocCnt (v : Level) : (s.lineWrite .sda v).allocCnt = s.allocCnt := rfl

/-! ### `s.lineDir .scl v` -/

@[simp] theorem lineDir_scl_mode (v : Dir) : (s.lineDir .scl v).mode = s.mode := rfl
@[simp] theorem lineDir_scl_rdAcc (v : Dir) : (s.lineDir .scl v).rdAcc = s.rdAcc := rfl
@[simp] theorem lineDir_scl_rdPos (v : Dir) : (s.lineDir .scl v).rdPos = s.rdPos := rfl
@[simp] theorem lineDir_scl_wrByte (v : Dir) : (s.lineDir .scl v).wrByte = s.wrByte := rfl
@[simp] theorem lineDir_scl_wrPos (v : Dir) : (s.lineDir .scl v).wrPos = s.wrPos := rfl
@[simp] theorem lineDir_scl_wrStatus (v : Dir) : (s.lineDir .scl v).wrStatus = s.wrStatus := rfl
@[simp] theorem lineDir_scl_lock (v : Dir) : (s.lineDir .scl v).lock = s.lock := rfl
@[simp] theorem lineDir_scl_irqEn (v : Dir) : (s.lineDir .scl v).irqEn = s.irqEn := rfl
@[simp] theorem lineDir_scl_sclDir (v : Dir) : (s.lineDir .scl v).sclDir = v := rfl
@[simp] theorem lineDir_scl_sdaDir (v : Dir) : (s.lineDir .scl v).sdaDir = s.sdaDir := rfl
@[simp] theorem lineDir_scl_sclOut (v : Dir) : (s.lineDir .scl v).sclOut = s.sclOut := rfl
@[simp] theorem lineDir_scl_sdaOut (v : Dir) : (s.lineDir .scl v).sdaOut = s.sdaOut := rfl
@[simp] theorem lineDir_scl_sclPrev (v : Dir) : (s.lineDir .scl v).sclPrev = s.sclPrev := rfl
@[simp] theorem lineDir_scl_dlRead (v : Dir) : (s.lineDir .scl v).dlRead = s.dlRead := rfl
@[simp] theorem lineDir_scl_dlWrite (v : Dir) : (s.lineDir .scl v).dlWrite = s.dlWrite := rfl
@[simp] theorem lineDir_scl_dlInhibit (v : Dir) : (s.lineDir .scl v).dlInhibit = s.dlInhibit := rfl
@[simp] theorem lineDir_scl_resendCnt (v : Dir) : (s.lineDir .scl v).resendCnt = s.resendCnt := rfl
@[simp] theorem lineDir_scl_cb (v : Dir) : (s.lineDir .scl v).cb = s.cb := rfl
@[simp] theorem lineDir_scl_cbEnabled (v : Dir) : (s.lineDir .scl v).cbEnabled = s.cbEnabled := rfl
@[simp] theorem lineDir_scl_queue (v : Dir) : (s.lineDir .scl v).queue = s.queue := rfl
@[simp] theorem lineDir_scl_par (v : Dir) : (s.lineDir .scl v).par = s.par := rfl
@[simp] theorem lineDir_scl_events (v : Dir) : (s.lineDir .scl v).events = s.events := rfl
@[simp] theorem lineDir_scl_portHost (v : Dir) : (s.lineDir .scl v).portHost = s.portHost := rfl
@[simp] theorem lineDir_scl_portReset (v : Dir) : (s.lineDir .scl v).portReset = s.portReset := rfl
@[simp] theorem lineDir_scl_outs (v : Dir) : (s.lineDir .scl v).outs = s.outs := rfl
@[simp] theorem lineDir_scl_allocDraws (v : Dir) : (s.lineDir .scl v).allocDraws = s.allocDraws := rfl
@[simp] theorem lineDir_scl_allocCnt (v : Dir) : (s.lineDir .scl v).allocCnt = s.allocCnt := rfl

/-! ### `s.lineDir .sda v` -/

@[simp] theorem lineDir_sda_mode (v : Dir) : (s.lineDir .sda v).mode = s.mode := rfl
@[simp] theorem lineDir_sda_rdAcc (v : Dir) : (s.lineDir .sda v).rdAcc = s.rdAcc := rfl
@[simp] theorem lineDir_sda_rdPos (v : Dir) : (s.lineDir .sda v).rdPos = s.rdPos := rfl
@[simp] theorem lineDir_sda_wrByte (v : Dir) : (s.lineDir .sda v).wrByte = s.wrByte := rfl
@[simp] theorem lineDir_sda_wrPos (v : Dir) : (s.lineDir .sda v).wrPos = s.wrPos := rfl
@[simp] theorem lineDir_sda_wrStatus (v : Dir) : (s.lineDir .sda v).wrStatus = s.wrStatus := rfl
@[simp] theorem lineDir_sda_lock (v : Dir) : (s.lineDir .sda v).lock = s.lock := rfl
@[simp] theorem lineDir_sda_irqEn (v : Dir) : (s.lineDir .sda v).irqEn = s.irqEn := rfl
@[simp] theorem lineDir_sda_sclDir (v : Dir) : (s.lineDir .sda v).sclDir = s.sclDir := rfl
@[simp] theorem lineDir_sda_sdaDir (v : Dir) : (s.lineDir .sda v).sdaDir = v := rfl
@[simp] theorem lineDir_sda_sclOut (v : Dir) : (s.lineDir .sda v).sclOut = s.sclOut := rfl
@[simp] theorem lineDir_sda_sdaOut (v : Dir) : (s.lineDir .sda v).sdaOut = s.sdaOut := rfl
@[simp] theorem lineDir_sda_sclPrev (v : Dir) : (s.lineDir .sda v).sclPrev = s.sclPrev := rfl
@[simp] theorem lineDir_sda_dlRead (v : Dir) : (s.lineDir .sda v).dlRead = s.dlRead := rfl
@[simp] theorem lineDir_sda_dlWrite (v : Dir) : (s.lineDir .sda v).dlWrite = s.dlWrite := rfl
@[simp] theorem lineDir_sda_dlInhibit (v : Dir) : (s.lineDir .sda v).dlInhibit = s.dlInhibit := rfl
@[simp] theorem lineDir_sda_resendCnt (v : Dir) : (s.lineDir .sda v).resendCnt = s.resendCnt := rfl
@[simp] theorem lineDir_sda_cb (v : Dir) : (s.lineDir .sda v).cb = s.cb := rfl
@[simp] theorem lineDir_sda_cbEnabled (v : Dir) : (s.lineDir .sda v).cbEnabled = s.cbEnabled := rfl
@[simp] theorem lineDir_sda_queue (v : Dir) : (s.lineDir .sda v).queue = s.queue := rfl
@[simp] theorem lineDir_sda_par (v : Dir) : (s.lineDir .sda v).par = s.par := rfl
@[simp] theorem lineDir_sda_events (v : Dir) : (s.lineDir .sda v).events = s.events := rfl
@[simp] theorem lineDir_sda_portHost (v : Dir) : (s.lineDir .sda v).portHost = s.portHost := rfl
@[simp] theorem lineDir_sda_portReset (v : Dir) : (s.lineDir .sda v).portReset = s.portReset := rfl
@[simp] theorem lineDir_sda_outs (v : Dir) : (s.lineDir .sda v).outs = s.outs := rfl
@[simp] theorem lineDir_sda_allocDraws (v : Dir) : (s.lineDir .sda v).allocDraws = s.allocDraws := rfl
@[simp] theorem lineDir_sda_allocCnt (v : Dir) : (s.lineDir .sda v).allocCnt = s.allocCnt := rfl

/-! ### `s.irqEnable v` -/

@[simp] theorem irqEnable_mode (v : Bool) : (s.irqEnable v).mode = s.mode := rfl
@[simp] theorem irqEnable_rdAcc (v : Bool) : (s.irqEnable v).rdAcc = s.rdAcc := rfl
@[simp] theorem irqEnable_rdPos (v : Bool) : (s.irqEnable v).rdPos = s.rdPos := rfl
@[simp] theorem irqEnable_wrByte (v : Bool) : (s.irqEnable v).wrByte = s.wrByte := rfl
@[simp] theorem irqEnable_wrPos (v : Bool) : (s.irqEnable v).wrPos = s.wrPos := rfl
@[simp] theorem irqEnable_wrStatus (v : Bool) : (s.irqEnable v).wrStatus = s.wrStatus := rfl
@[simp] theorem irqEnable_lock (v : Bool) : (s.irqEnable v).lock = s.lock := rfl
@[simp] theorem irqEnable_irqEn (v : Bool) : (s.irqEnable v).irqEn = v := rfl
@[simp] theorem irqEnable_sclDir (v : Bool) : (s.irqEnable v).sclDir = s.sclDir := rfl
@[simp] theorem irqEnable_sdaDir (v : Bool) : (s.irqEnable v).sdaDir = s.sdaDir := rfl
@[simp] theorem irqEnable_sclOut (v : Bool) : (s.irqEnable v).sclOut = s.sclOut := rfl
@[simp] theorem irqEnable_sdaOut (v : Bool) : (s.irqEnable v).sdaOut = s.sdaOut := rfl
@[simp] theorem irqEnable_sclPrev (v : Bool) : (s.irqEnable v).sclPrev = s.sclPrev := rfl
@[simp] theorem irqEnable_dlRead (v : Bool) : (s.irqEnable v).dlRead = s.dlRead := rfl
@[simp] theorem irqEnable_dlWrite (v : Bool) : (s.irqEnable v).dlWrite = s.dlWrite := rfl
@[simp] theorem irqEnable_dlInhibit (v : Bool) : (s.irqEnable v).dlInhibit = s.dlInhibit := rfl
@[simp] theorem irqEnable_resendCnt (v : Bool) : (s.irqEnable v).resendCnt = s.resendCnt := rfl
@[simp] theorem irqEnable_cb (v : Bool) : (s.irqEnable v).cb = s.cb := rfl
@[simp] theorem irqEnable_cbEnabled (v : Bool) : (s.irqEnable v).cbEnabled = s.cbEnabled := rfl
@[simp] theorem irqEnable_queue (v : Bool) : (s.irqEnable v).queue = s.queue := rfl
@[simp] theorem irqEnable_par (v : Bool) : (s.irqEnable v).par = s.par := rfl
@[simp] theorem irqEnable_events (v : Bool) : (s.irqEnable v).events = s.events := rfl
@[simp] theorem irqEnable_portHost (v : Bool) : (s.irqEnable v).portHost = s.portHost := rfl
@[simp] theorem irqEnable_portReset (v : Bool) : (s.irqEnable v).portReset = s.portReset := rfl
@[simp] theorem irqEnable_outs (v : Bool) : (s.irqEnable v).outs = s.outs := rfl
@[simp] theorem irqEnable_allocDraws (v : Bool) : (s.irqEnable v).allocDraws = s.allocDraws := rfl
@[simp] theorem irqEnable_allocCnt (v : Bool) : (s.irqEnable v).allocCnt = s.allocCnt := rfl

/-! ### `s.give` -/

@[simp] theorem give_mode : (s.give).mode = s.mode := rfl
@[simp] theorem give_rdAcc : (s.give).rdAcc = s.rdAcc := rfl
@[simp] theorem give_rdPos : (s.give).rdPos = s.rdPos := rfl
@[simp] theorem give_wrByte : (s.give).wrByte = s.wrByte := rfl
@[simp] theorem give_wrPos : (s.give).wrPos = s.wrPos := rfl
@[simp] theorem give_wrStatus : (s.give).wrStatus = s.wrStatus := rfl
@[simp] theorem give_lock : (s.give).lock = true := rfl
@[simp] theorem give_irqEn : (s.give).irqEn = s.irqEn := rfl
@[simp] theorem give_sclDir : (s.give).sclDir = s.sclDir := rfl
@[simp] theorem give_sdaDir : (s.give).sdaDir = s.sdaDir := rfl
@[simp] theorem give_sclOut : (s.give).sclOut = s.sclOut := rfl
@[simp] theorem give_sdaOut : (s.give).sdaOut = s.sdaOut := rfl
@[simp] theorem give_sclPrev : (s.give).sclPrev = s.sclPrev := rfl
@[simp] theorem give_dlRead : (s.give).dlRead = s.dlRead := rfl
@[simp] theorem give_dlWrite : (s.give).dlWrite = s.dlWrite := rfl
@[simp] theorem give_dlInhibit : (s.give).dlInhibit = s.dlInhibit := rfl
@[simp] theorem give_resendCnt : (s.give).resendCnt = s.resendCnt := rfl
@[simp] theorem give_cb : (s.give).cb = s.cb := rfl
@[simp] theorem give_cbEnabled : (s.give).cbEnabled = s.cbEnabled := rfl
@[simp] theorem give_queue : (s.give).queue = s.queue := rfl
@[simp] theorem give_par : (s.give).par = s.par := rfl
@[simp] theorem give_events : (s.give).events = s.events := rfl
@[simp] theorem give_portHost : (s.give).portHost = s.portHost := rfl
@[simp] theorem give_portReset : (s.give).portReset = s.portReset := rfl
@[simp] theorem give_outs : (s.give).outs = s.outs := rfl
@[simp] theorem give_allocDraws : (s.give).allocDraws = s.allocDraws := rfl
@[simp] theorem give_allocCnt : (s.give).allocCnt = s.allocCnt := rfl

end Sys2Proof.Machine.State
end

