-- ==== Sys2Proof/Laws/Ops.lean ====
section
/-! SUPPORT. One lemma per shared operation: everything it does, so that a caller's proof need not unfold it. -/

namespace Sys2Proof.Machine

/-! ### Sequencing and enabling -/

@[simp] theorem andThen_next (s : State) (f : State → Out) : andThen (.next s) f = f s := rfl
@[simp] theorem andThen_fault (r : Fault) (f : State → Out) : andThen (.fault r) f = .fault r := rfl
@[simp] theorem andThen_refused (r : Refusal) (f : State → Out) : andThen (.refused r) f = .refused r := rfl

/-- A sequence ends in a next state exactly when both parts do. -/
theorem andThen_eq_next {o : Out} {f : State → Out} {t : State} :
    andThen o f = .next t ↔ ∃ u, o = .next u ∧ f u = .next t := by
  cases o <;> simp

/-- An enabled edge operation runs. -/
theorem atSlot_enabled {m : Mode} {k : Slot} {f : State → State} {s : State} (hm : s.mode = m) (hk : s.pc = k) :
    atSlot m k f s = .next (f s) := by simp [atSlot, hm, hk]

/-- Everything an edge operation can do: run where it is enabled, be refused elsewhere. -/
theorem atSlot_eq_next {m : Mode} {k : Slot} {f : State → State} {s t : State} :
    atSlot m k f s = .next t ↔ (s.mode = m ∧ s.pc = k) ∧ t = f s := by
  unfold atSlot
  split
  · rename_i h
    constructor
    · intro e; injection e with e; exact ⟨h, e.symm⟩
    · rintro ⟨-, rfl⟩; rfl
  · rename_i h
    constructor
    · intro e; cases e
    · rintro ⟨h', -⟩; exact absurd h' h

/-! ### The read side -/

/-- `ReadReset` (R153). -/
theorem readReset_eq (s : State) : readReset s = { s with rdPos := 0#4, rdAcc := 0x00#8, dlRead := none } := rfl

theorem abortNoResend_eq (s : State) : abortNoResend s = readReset s := rfl

/-- The epilogue of an accepted read edge (R140). -/
theorem readEpilogue_eq (s : State) :
    readEpilogue s = { s with rdPos := s.rdPos + 1#4, dlRead := some s.par.tReadBit } := rfl

/-- The bit a data slot assigns, and the bits it keeps (R95). -/
theorem insertBit_getLsbD (v : Byte) (j i : Nat) (d : Level) (hj : j < 8) (hi : i < 8) :
    (insertBit v j d).getLsbD i = if i = j then d else v.getLsbD i := by
  interval_cases j <;> interval_cases i <;> cases d <;> simp [insertBit]

/-! ### The write side -/

/-- The try-take leaves the lock taken, whatever it was, and nothing else changed (R75). -/
theorem tryTake_eq (s : State) : s.tryTake = { s with lock := false } := by
  cases h : s.lock <;> simp [State.tryTake, h]
  cases s; simp_all

/-- Everything an admitted `H.WRITE` does (R170). -/
theorem admitWrite_eq (b : Byte) (s : State) : admitWrite b s =
    { s with
      mode := .write, rdAcc := 0x00#8, rdPos := 0#4, wrByte := b, wrPos := 0#4, wrStatus := .active
      lock := false, irqEn := false, sclDir := .output, sdaDir := .output, sclOut := false, sdaOut := true
      dlRead := none, dlInhibit := some s.par.tInhibit } := by
  simp only [admitWrite, tryTake_eq]
  rfl

theorem initiateWrite_read {s : State} (b : Byte) (h : s.mode = .read) : initiateWrite b s = (admitWrite b s, .accepted) := by
  simp [initiateWrite, h]

theorem initiateWrite_write {s : State} (b : Byte) (h : s.mode = .write) : initiateWrite b s = (s.raise .busy, .busy) := by
  simp [initiateWrite, h]

/-- Everything `AbortResend` does in Read mode, where alone it runs (R156, R157). -/
theorem abortResend_read {s : State} (h : s.mode = .read) : abortResend s =
    match s.par.resendMax with
    | none => admitWrite s.par.resendByte s
    | some m =>
      if s.resendCnt < m then admitWrite s.par.resendByte { s with resendCnt := s.resendCnt + 1 } else readReset s := by
  unfold abortResend resendAllowed countResend initiateWrite
  cases hm : s.par.resendMax with
  | none => simp [readReset_eq, hm, h, admitWrite_eq]
  | some m => by_cases hc : s.resendCnt < m <;> simp [readReset_eq, hm, h, hc, admitWrite_eq]

/-- Everything `Finish` does (R190). -/
theorem finish_eq (c : Completion) (s : State) : finish c s =
    { s with
      mode := .read, rdPos := 0#4, wrPos := 0#4, wrStatus := completionStatus c, lock := true
      sclDir := .input, sdaDir := .input, dlWrite := none, outs := s.outs ++ [.done c] } := rfl

/-- The epilogue of a write edge (R177). -/
theorem writeEpilogue_eq (s : State) :
    writeEpilogue s = { s with wrPos := s.wrPos + 1#4, dlWrite := some s.par.tWriteBit } := rfl

/-- Everything a driven slot does (R177). -/
theorem writeDriveSlot_eq (v : Level) (s : State) : writeDriveSlot v s =
    { s with sdaOut := v, wrPos := s.wrPos + 1#4, dlWrite := some s.par.tWriteBit } := rfl

/-- Everything the Stop slot does (R188). -/
theorem writeStopSlot_eq (s : State) : writeStopSlot s =
    { s with sdaOut := true, sdaDir := .input, wrPos := s.wrPos + 1#4, dlWrite := some s.par.tWriteBit } := rfl

/-- Everything the end of the hold does (R176). -/
theorem releaseClock_eq (s : State) : releaseClock s =
    { s with
      irqEn := true, sdaOut := false, wrPos := 1#4, sclOut := true, sclDir := .input, dlInhibit := none
      dlWrite := some s.par.tWriteFirst } := rfl

/-! ### The host boundary -/

/-- `Alloc()` touches the allocator alone. -/
theorem alloc_frame (s : State) : ∃ ds n, (alloc s).2 = { s with allocDraws := ds, allocCnt := n } := by
  unfold alloc
  split
  · exact ⟨s.allocDraws, s.allocCnt, rfl⟩
  · split
    · exact ⟨_, s.allocCnt, rfl⟩
    · exact ⟨s.allocDraws, _, rfl⟩

/-- `Alloc()` fails at a finite QUEUE_CAP (R237). -/
theorem alloc_at_cap {s : State} (h : s.par.queueCap = some s.queue.length) : alloc s = (false, s) := by
  simp [alloc, h]

/-- `QueueAdd` changes the queue, the allocator and the outputs, and nothing else (R237). -/
theorem queueAdd_frame (b : Byte) (s : State) : ∃ q ds n os,
    queueAdd b s = { s with queue := q, allocDraws := ds, allocCnt := n, outs := s.outs ++ os } := by
  obtain ⟨d₁, n₁, h₁⟩ := alloc_frame s
  obtain ⟨d₂, n₂, h₂⟩ := alloc_frame (flush (alloc s).2)
  unfold queueAdd
  simp only
  split
  · exact ⟨(alloc s).2.queue ++ [b], d₁, n₁, [], by simp [h₁]⟩
  · split
    · exact ⟨[b], d₂, n₂, [], by rw [h₂, h₁]; simp [flush]⟩
    · refine ⟨[], d₂, n₂, [.err .allocationFailure s.mode s.pc], ?_⟩
      rw [h₂, h₁]
      rfl

/-- `Deliver` changes the queue, the allocator and the outputs, and nothing else (R233). -/
theorem deliver_frame (b : Byte) (s : State) : ∃ q ds n os,
    deliver b s = { s with queue := q, allocDraws := ds, allocCnt := n, outs := s.outs ++ os } := by
  unfold deliver
  split
  · exact ⟨s.queue, s.allocDraws, s.allocCnt, [.cb b], rfl⟩
  · exact queueAdd_frame b s

/-- The counter after a delivered byte (R152, R157). -/
theorem clearResend_eq (s : State) : clearResend s =
    { s with resendCnt := if s.par.resendMax = none then s.resendCnt else 0 } := by
  unfold clearResend
  split <;> simp_all

/-- `Finalize` ends the frame, emits `RX` and hands the byte on (R152). -/
theorem finalize_eq (s : State) : finalize s = deliver s.rdAcc
    { s with
      rdPos := 0#4, rdAcc := 0x00#8, dlRead := none
      resendCnt := if s.par.resendMax = none then s.resendCnt else 0, outs := s.outs ++ [.rx s.rdAcc] } := by
  simp only [finalize, clearResend_eq]
  rfl

/-! ### The tick -/

/-- A tick in which `reset` is asserted (R300). -/
theorem execTick_reset {s : State} (c d : Level) (h : s.portReset = true) :
    execTick c d s = .next (resetRegisters { s with portHost := none, portReset := false }) := by simp [execTick, h]

/-- Any other tick is its five phases in order (R126). -/
theorem execTick_phases {s : State} (c d : Level) (h : s.portReset = false) :
    execTick c d s = andThen (andThen (edgePhase c d (countPhase s)) deadlinePhase) hostPhase := by simp [execTick, h]

/-- Without an enabled falling edge phases 2 and 3 only record the level of SCL (R120, R122). -/
theorem edgePhase_quiet {s : State} (c d : Level)
    (h : (fallingEdge s.sclPrev (s.lineRead .scl c) && s.irqEn) = false) :
    edgePhase c d s = .next { s with sclPrev := s.lineRead .scl c } := by simp [edgePhase, h]

/-- An enabled falling edge is dispatched with the SDA level of the same tick (R122, R125). -/
theorem edgePhase_edge {s : State} (c d : Level)
    (h : (fallingEdge s.sclPrev (s.lineRead .scl c) && s.irqEn) = true) :
    edgePhase c d s = dispatchEdge (s.lineRead .sda d) { s with sclPrev := s.lineRead .scl c } := by simp [edgePhase, h]

/-- Without a deadline at 0, phase 4 does nothing (R126). -/
theorem deadlinePhase_quiet {s : State} (h₁ : s.dlRead ≠ some 0) (h₂ : s.dlWrite ≠ some 0) (h₃ : s.dlInhibit ≠ some 0) :
    deadlinePhase s = .next s := by simp [deadlinePhase, h₁, h₂, h₃]

/-- Everything phase 4 can do: the operation of the deadline that is due, or nothing (R126). -/
theorem deadlinePhase_cases {s t : State} (h : deadlinePhase s = .next t) :
    (s.dlRead = some 0 ∧ execToRead s = .next t) ∨
    (s.dlRead ≠ some 0 ∧ s.dlWrite = some 0 ∧ execToWrite s = .next t) ∨
    (s.dlRead ≠ some 0 ∧ s.dlWrite ≠ some 0 ∧ s.dlInhibit = some 0 ∧ execToInhibit s = .next t) ∨
    (s.dlRead ≠ some 0 ∧ s.dlWrite ≠ some 0 ∧ s.dlInhibit ≠ some 0 ∧ t = s) := by
  unfold deadlinePhase at h
  split at h
  · exact .inl ⟨‹_›, h⟩
  · split at h
    · exact .inr (.inl ⟨‹_›, ‹_›, h⟩)
    · split at h
      · exact .inr (.inr (.inl ⟨‹_›, ‹_›, ‹_›, h⟩))
      · cases h; exact .inr (.inr (.inr ⟨‹_›, ‹_›, ‹_›, rfl⟩))

/-- Everything phase 5 can do: the host command on the port, taken off it, or nothing (R126). -/
theorem hostPhase_cases {s t : State} (h : hostPhase s = .next t) :
    (s.portHost = none ∧ t = s) ∨ ∃ c, s.portHost = some c ∧ runHost c { s with portHost := none } = .next t := by
  unfold hostPhase at h
  split at h
  · cases h; exact .inl ⟨‹_›, rfl⟩
  · exact .inr ⟨_, ‹_›, h⟩

/-- Everything a tick can do: `RESET`, or the five phases in order (R126, R300). -/
theorem execTick_cases {s t : State} {c d : Level} (h : execTick c d s = .next t) :
    (s.portReset = true ∧ t = resetRegisters { s with portHost := none, portReset := false }) ∨
    (s.portReset = false ∧ ∃ u v,
      edgePhase c d (countPhase s) = .next u ∧ deadlinePhase u = .next v ∧ hostPhase v = .next t) := by
  cases hr : s.portReset with
  | true => rw [execTick_reset c d hr] at h; cases h; exact .inl ⟨rfl, rfl⟩
  | false =>
    rw [execTick_phases c d hr, andThen_eq_next] at h
    obtain ⟨v, hv, ht⟩ := h
    obtain ⟨u, hu, hv⟩ := andThen_eq_next.mp hv
    exact .inr ⟨rfl, u, v, hu, hv, ht⟩

/-- One count, as subtraction (R126). -/
theorem countDown_eq (o : Option Nat) : countDown o = o.map (· - 1) := by
  cases o with
  | none => rfl
  | some n => cases n <;> rfl

/-! ### The deadline operations -/

/-- `TO.READ` completes exactly with its deadline armed in Read mode (R213). -/
theorem execToRead_eq_next {s t : State} :
    execToRead s = .next t ↔ s.dlRead ≠ none ∧ s.mode = .read ∧ t = readTimeout s := by
  cases h : s.dlRead <;> cases hm : s.mode <;> simp [execToRead, h, hm, eq_comm]

/-- `TO.WRITE` completes exactly with its deadline armed in Write mode (R214). -/
theorem execToWrite_eq_next {s t : State} : execToWrite s = .next t ↔
    s.dlWrite ≠ none ∧ s.mode = .write ∧ t = finish .failure ((s.setDeadline .write none).raise .timeout) := by
  cases h : s.dlWrite <;> cases hm : s.mode <;> simp [execToWrite, h, hm, eq_comm]

/-- `TO.INHIBIT` completes exactly with its deadline armed in the hold (R176). -/
theorem execToInhibit_eq_next {s t : State} : execToInhibit s = .next t ↔
    s.dlInhibit ≠ none ∧ (s.mode = .write ∧ s.wrPos = 0#4) ∧ t = releaseClock s := by
  unfold execToInhibit
  cases h : s.dlInhibit with
  | none => simp
  | some n =>
    by_cases hp : s.mode = .write ∧ s.wrPos = 0#4
    · simp only [ne_eq, reduceCtorEq, not_false_eq_true, hp, true_and, if_true, Host.Outcome.next.injEq]
      exact eq_comm
    · simp [hp]

end Sys2Proof.Machine
end

