-- ==== Sys2Proof/Laws/Step.lean ====
section
/-! SUPPORT. The step, the dispatch inside a tick, and the placing of a word. -/

namespace Sys2Proof.Machine

/-- The fields of the word the dispatch forms (R96). -/
theorem formWord_fields (e : Event) (s : State) :
    EventWord.kind (formWord e s) = e.kind ∧ EventWord.mode (formWord e s) = s.mode ∧
    EventWord.slot (formWord e s) = s.pc ∧ EventWord.operand (formWord e s) = e.operand := by
  simp [formWord]

/-- An edge operation dispatched inside a tick is the operation `exec` runs (R123). -/
theorem runEdge_eq_exec {m : Mode} {k : Slot} {d : Level} {i : Instr} (h : edgeInstr m k d = .ok i) (s : State) :
    runEdge i s = exec i s := by
  unfold edgeInstr at h
  split at h <;> split at h <;> first | (cases h; rfl) | cases h

/-- The dispatch of an edge: the operation of (mode, position), or the fault of a reserved slot (R123, R159, R193). -/
theorem dispatchEdge_eq (d : Level) (s : State) : dispatchEdge d s =
    match edgeInstr s.mode s.pc d with
    | .ok i => exec i s
    | .error r => .fault (faultOf r) := by
  cases h : edgeInstr s.mode s.pc d with
  | ok i => simp only [dispatchEdge, h]; exact runEdge_eq_exec h s
  | error r => simp only [dispatchEdge, h]

/-- The host command of a tick is its own operation (30_encoding.md R99). -/
theorem runHost_eq_exec (c : HostCmd) (s : State) : runHost c s = exec c.toInstr s := by cases c <;> rfl

/-- The step on an event. -/
theorem step_cons {s : State} {e : Event} {rest : List Event} (h : s.events = e :: rest) : step s =
    match decodeWord (formWord e s) with
    | .ok i => exec i (loadEvent e rest s)
    | .error r => .fault (faultOf r) := by
  cases hd : decodeWord (formWord e s) <;> simp [step, h, hd]

end Sys2Proof.Machine
end

