-- ==== Sys2Proof/Laws/HostCalls.lean ====
section
/-! SUPPORT. The ticks of a host call: with `reset`, and the result a host operation leaves as the tick's last output. -/

namespace Sys2Proof.Machine

/-- A tick of a host call with `reset` is `RESET`; the command is not run (70_reset_and_hazards.md R300). -/
theorem hostTick_reset {x : Sample} (c : Option HostCmd) (s : State) (h : x.reset = true) :
    hostTick x c s = .next (resetRegisters { s with portHost := none, portReset := false }) :=
  execTick_reset (s := { s with portHost := c, portReset := x.reset }) x.scl x.sda h

/-- The result that comes last among a tick's outputs is its host operation's. -/
theorem lastResult_of_outs {s t : State} {os : List Output} {r : HostResult} (h : t.outs = s.outs ++ os ++ [.result r]) :
    lastResult s t = some r := by simp [lastResult, h, List.append_assoc]

/-- A tick without outputs has no result. -/
theorem lastResult_of_outs_eq {s t : State} (h : t.outs = s.outs) : lastResult s t = none := by simp [lastResult, h]

/-- A wait used up is the error `Timeout` (44_host_boundary.md R231, 60_exceptions.md R261). -/
@[simp] theorem waitWrite_zero (xs : List Sample) (s : State) : waitWrite 0 xs s = .returned .timeout (s.raise .timeout) := rfl

@[simp] theorem waitWrite_nil (n : Nat) (s : State) : waitWrite (n + 1) [] s = .waiting s := rfl

@[simp] theorem writeBlocking_nil (b : Byte) (s : State) : writeBlocking b [] s = .waiting s := rfl

/-- `writeBlocking` issues its `H.WRITE` once: whatever its first tick does, the call ends there or goes into its one wait (60_exceptions.md
R271). -/
theorem writeBlocking_cons (b : Byte) (x : Sample) (rest : List Sample) (s t : State) (h : hostTick x (some (.write b)) s = .next t) :
    writeBlocking b (x :: rest) s =
      if lastResult s t = some .busy then .returned .busy t else waitWrite t.par.tBlockWrite rest t := by
  simp only [writeBlocking, h]
  split <;> simp_all

/-- A byte in the queue ends `read`, however much of its wait is left (44_host_boundary.md R239). -/
theorem waitRead_of_queue (n : Nat) (xs : List Sample) {s : State} {b : Byte} {rest : List Byte} (h : s.queue = b :: rest) :
    waitRead n xs s = takeByte b s := by cases n <;> simp [waitRead, h]

/-- `read` with its wait used up and the queue empty is the error `Timeout` (R239). -/
theorem waitRead_zero (xs : List Sample) {s : State} (h : s.queue = []) : waitRead 0 xs s = .returned .timeout (s.raise .timeout) := by
  simp [waitRead, h]

/-- `read` looks at the queue again after each tick of its wait (R239). -/
theorem waitRead_cons (n : Nat) {x : Sample} (rest : List Sample) {s t : State} (h : s.queue = []) (ht : hostTick x none s = .next t) :
    waitRead (n + 1) (x :: rest) s = waitRead n rest t := by simp [waitRead, h, ht]

theorem waitRead_nil (n : Nat) {s : State} (h : s.queue = []) : waitRead (n + 1) [] s = .waiting s := by simp [waitRead, h]

end Sys2Proof.Machine
end

