-- ==== Sys2Proof/Laws/PerInstr.lean ====
section
/-! SUPPORT. Statements made per operation: the encoder writes only words that an event source of the spec can present
(30_encoding.md R99, R101). -/

namespace Sys2Proof.Laws.EncodeWellFormed

/-- The word of the operation has no unused operand bit set and is not reserved. -/
def Statement (i : Instr) : Prop := EventWord.wellFormed (encode i) = true

theorem rdStart (d : Level) : Statement (.rdStart d) := by cases d <;> rfl
theorem rdData1 (d : Level) : Statement (.rdData1 d) := by cases d <;> rfl
theorem rdData2 (d : Level) : Statement (.rdData2 d) := by cases d <;> rfl
theorem rdData3 (d : Level) : Statement (.rdData3 d) := by cases d <;> rfl
theorem rdData4 (d : Level) : Statement (.rdData4 d) := by cases d <;> rfl
theorem rdData5 (d : Level) : Statement (.rdData5 d) := by cases d <;> rfl
theorem rdData6 (d : Level) : Statement (.rdData6 d) := by cases d <;> rfl
theorem rdData7 (d : Level) : Statement (.rdData7 d) := by cases d <;> rfl
theorem rdData8 (d : Level) : Statement (.rdData8 d) := by cases d <;> rfl
theorem rdParity (d : Level) : Statement (.rdParity d) := by cases d <;> rfl
theorem rdStop (d : Level) : Statement (.rdStop d) := by cases d <;> rfl
theorem wrStart (d : Level) : Statement (.wrStart d) := by cases d <;> rfl
theorem wrData1 (d : Level) : Statement (.wrData1 d) := by cases d <;> rfl
theorem wrData2 (d : Level) : Statement (.wrData2 d) := by cases d <;> rfl
theorem wrData3 (d : Level) : Statement (.wrData3 d) := by cases d <;> rfl
theorem wrData4 (d : Level) : Statement (.wrData4 d) := by cases d <;> rfl
theorem wrData5 (d : Level) : Statement (.wrData5 d) := by cases d <;> rfl
theorem wrData6 (d : Level) : Statement (.wrData6 d) := by cases d <;> rfl
theorem wrData7 (d : Level) : Statement (.wrData7 d) := by cases d <;> rfl
theorem wrData8 (d : Level) : Statement (.wrData8 d) := by cases d <;> rfl
theorem wrParity (d : Level) : Statement (.wrParity d) := by cases d <;> rfl
theorem wrStop (d : Level) : Statement (.wrStop d) := by cases d <;> rfl
theorem wrAck (d : Level) : Statement (.wrAck d) := by cases d <;> rfl
theorem toRead : Statement .toRead := rfl
theorem toWrite : Statement .toWrite := rfl
theorem toInhibit : Statement .toInhibit := rfl
theorem hWrite (b : Byte) : Statement (.hWrite b) := by unfold Statement; revert b; decide
theorem hCollect : Statement .hCollect := rfl
theorem reset : Statement .reset := rfl
theorem tick (c d : Level) : Statement (.tick c d) := by cases c <;> cases d <;> rfl
theorem hConfigure (d : Level) : Statement (.hConfigure d) := by cases d <;> rfl
theorem hEnableCb : Statement .hEnableCb := rfl
theorem hDisableCb : Statement .hDisableCb := rfl
theorem hRead : Statement .hRead := rfl

end Sys2Proof.Laws.EncodeWellFormed
end

