-- ==== Sys2Proof/Tests/Slice0.lean ====
section
/-! SUPPORT. The model's own tests. Expected results are the spec's: the vectors V, Q, X, K of 95_test_vectors.md, the words of
30_encoding.md and opcode_table.json, and the examples inside the rules; each test names its source. The witnesses at the end show, for
every obligation with hypotheses, a state and operands that meet them. -/

namespace Sys2Proof.Tests

open Sys2Proof Sys2Proof.Machine

/-! ### Checks on what is handed to the block -/

/-- An EDGE word with operand bit 1 set (R99). -/
theorem test_wellFormed_refuses_unused_operand_bit : EventWord.operandClean 0x00002#17 = false := by decide

/-- TO_READ with an operand (R99). -/
theorem test_wellFormed_refuses_operand_of_deadline : EventWord.wellFormed 0x02001#17 = false := by decide

/-- TICK with operand bit 2 set (R99). -/
theorem test_wellFormed_refuses_third_tick_bit : EventWord.operandClean 0x0E004#17 = false := by decide

/-- Read slot 11 (R101). -/
theorem test_wellFormed_refuses_read_slot_11 :
    EventWord.operandClean 0x00B00#17 = true ∧ EventWord.notReserved 0x00B00#17 = false := by decide

/-- Write slot 12 (R101). -/
theorem test_wellFormed_refuses_write_slot_12 :
    EventWord.operandClean 0x01C00#17 = true ∧ EventWord.notReserved 0x01C00#17 = false := by decide

/-- Kind 12 (R101). -/
theorem test_wellFormed_refuses_kind_12 :
    EventWord.operandClean 0x18000#17 = true ∧ EventWord.notReserved 0x18000#17 = false := by decide

/-- A deadline armed with no tick, each of the four (40_edge_dispatch.md R126 (b)). -/
theorem test_params_refuses_zero_deadline :
    Params.deadlinesPositive { tReadBit := 0 } = false ∧ Params.deadlinesPositive { tWriteBit := 0 } = false ∧
    Params.deadlinesPositive { tWriteFirst := 0 } = false ∧ Params.deadlinesPositive { tInhibit := 0 } = false := by decide

/-- A time quantum of 0. -/
theorem test_params_refuses_zero_tick : Params.tickPositive { tick := 0 } = false := by decide

/-- The defaults of R10 and the last words of each frame pass. -/
theorem test_wellFormed_accepts : Params.wellFormed Params.default = true ∧ EventWord.wellFormed 0x00A01#17 = true ∧
    EventWord.wellFormed 0x01B01#17 = true ∧ EventWord.wellFormed 0x16000#17 = true := by decide

/-! ### Decoding: words written out bit by bit, kkkk m ssss oooooooo (30_encoding.md R96 to R100) -/

theorem test_decode_read_start : decodeWord 0b00000000000000000#17 = .ok (.rdStart false) := by decide
theorem test_decode_read_data : decodeWord 0b00000000100000001#17 = .ok (.rdData1 true) ∧
    decodeWord 0b00000001000000001#17 = .ok (.rdData2 true) ∧ decodeWord 0b00000001100000000#17 = .ok (.rdData3 false) ∧
    decodeWord 0b00000010000000001#17 = .ok (.rdData4 true) ∧ decodeWord 0b00000010100000001#17 = .ok (.rdData5 true) ∧
    decodeWord 0b00000011000000000#17 = .ok (.rdData6 false) ∧ decodeWord 0b00000011100000001#17 = .ok (.rdData7 true) ∧
    decodeWord 0b00000100000000001#17 = .ok (.rdData8 true) := by decide
theorem test_decode_read_end : decodeWord 0b00000100100000001#17 = .ok (.rdParity true) ∧
    decodeWord 0b00000101000000000#17 = .ok (.rdStop false) := by decide
theorem test_decode_write_start : decodeWord 0b00001000000000000#17 = .ok (.wrStart false) := by decide
theorem test_decode_write_data : decodeWord 0b00001000100000001#17 = .ok (.wrData1 true) ∧
    decodeWord 0b00001001000000001#17 = .ok (.wrData2 true) ∧ decodeWord 0b00001001100000001#17 = .ok (.wrData3 true) ∧
    decodeWord 0b00001010000000001#17 = .ok (.wrData4 true) ∧ decodeWord 0b00001010100000001#17 = .ok (.wrData5 true) ∧
    decodeWord 0b00001011000000001#17 = .ok (.wrData6 true) ∧ decodeWord 0b00001011100000000#17 = .ok (.wrData7 false) ∧
    decodeWord 0b00001100000000001#17 = .ok (.wrData8 true) := by decide
theorem test_decode_write_end : decodeWord 0b00001100100000000#17 = .ok (.wrParity false) ∧
    decodeWord 0b00001101000000001#17 = .ok (.wrStop true) ∧ decodeWord 0b00001101100000001#17 = .ok (.wrAck true) := by decide
theorem test_decode_deadlines : decodeWord 0b00010000000000000#17 = .ok .toRead ∧
    decodeWord 0b00100000000000000#17 = .ok .toWrite ∧ decodeWord 0b00110000000000000#17 = .ok .toInhibit := by decide
theorem test_decode_host : decodeWord 0b01000000001011010#17 = .ok (.hWrite 0x5A#8) ∧
    decodeWord 0b01010000000000000#17 = .ok .hCollect ∧ decodeWord 0b10000000000000001#17 = .ok (.hConfigure true) ∧
    decodeWord 0b10010000000000000#17 = .ok .hEnableCb ∧ decodeWord 0b10100000000000000#17 = .ok .hDisableCb ∧
    decodeWord 0b10110000000000000#17 = .ok .hRead := by decide
theorem test_decode_reset_and_tick : decodeWord 0b01100000000000000#17 = .ok .reset ∧
    decodeWord 0b01110000000000010#17 = .ok (.tick false true) ∧ decodeWord 0b01110000000000001#17 = .ok (.tick true false) := by decide

/-- The word listed for V32 and the one the dispatch would form there decode alike (95_test_vectors.md, opening). -/
theorem test_decode_ignores_slot_of_host_word : decodeWord 0x080ED#17 = decodeWord 0x095ED#17 := by decide

/-- The words of R101, by the name they are rejected under. -/
theorem test_decode_rejects_by_name : decodeWord 0x00B00#17 = .error .reservedReadSlot ∧
    decodeWord 0x00F01#17 = .error .reservedReadSlot ∧ decodeWord 0x01C00#17 = .error .reservedWriteSlot ∧
    decodeWord 0x18000#17 = .error .reservedKind ∧ decodeWord 0x1FFFF#17 = .error .reservedKind := by decide

theorem test_encode_listed_words : encode (.rdStop true) = 0x00A01#17 ∧ encode (.wrParity true) = 0x01901#17 ∧
    encode (.hWrite 0xFF#8) = 0x080FF#17 ∧ encode (.tick false true) = 0x0E002#17 ∧ encode (.hConfigure false) = 0x10000#17 := by decide

/-- A table row has 17 bits, 3 bytes; a number with a higher bit set is no event word. -/
theorem test_table_words : decodeTableWord 24 0x0E003 = some (.tick true true) ∧ decodeTableWord 17 0x16000 = some .hRead ∧
    decodeTableWord 24 0x20000 = none ∧ decodeTableWord 24 0x01C00 = none := by decide

/-! ### Frames and parity (95_test_vectors.md 2.1) -/

theorem test_frame_words : readFrameWord 0xA5#8 = 0x74A#11 ∧ writeFrameWord 0xA5#8 true = 0xF4A#12 ∧
    readFrameWord 0xFE#8 = 0x5FC#11 ∧ writeFrameWord 0x00#8 false = 0x600#12 ∧ readFrameWord 0x80#8 = 0x500#11 := by decide
theorem test_parity_levels : wireParity 0x00#8 = true ∧ wireParity 0x01#8 = false ∧ wireParity 0x7F#8 = false ∧
    wireParity 0xAA#8 = true ∧ wireParity 0xFF#8 = true := by decide
theorem test_pseudo_operations : rxFrame 0xA5#8 = rxRaw 0x74A#11 ∧
    rxRaw 0x402#11 = [.E false, .E true, .E false, .E false, .E false, .E false, .E false, .E false, .E false, .E false, .E true] ∧
    (txClk false).length = 12 := by decide

/-- The spellings of R104. -/
theorem test_spelling : TraceLine.spell (.W 0x5A#8) = ["W 0x5A"] ∧ TraceLine.spell (.E false) = ["E 0"] ∧
    TraceLine.spell (.T true false none false) = ["T 1 0"] ∧ TraceLine.spell (.CFG true) = ["CFG 1"] := by decide

/-- The codes of R106 and R261. -/
theorem test_codes : modeCode .write = 1#1 ∧ statusCode .failure = 3#2 ∧ dirCode .output = 1#1 ∧ lineAddr .sda = 1 ∧
    errorCode .busy = 1#4 ∧ errorCode .invalidArgument = 8#4 := by decide

/-- A device clock of 60 ticks keeps MIN_BIT_PERIOD, one of 59 does not (R128). -/
theorem test_device_clock :
    fallsSpaced 3 none true [false, true, true, false] = true ∧ fallsSpaced 3 none true [false, true, false] = false := by decide

/-! ### One step each. `after l s t`: the event `l` in state `s` leads to `t`. -/

/-- The step on the one event `l` gives exactly `t`. -/
def after (l : TraceLine) (s t : State) : Bool :=
  match step (s.withTrace [l]) with
  | .next u => decide (u = t)
  | _ => false

/-- The step on the one event `l` stops with the fault `f`. -/
def faults (l : TraceLine) (s : State) (f : Fault) : Bool :=
  match step (s.withTrace [l]) with
  | .fault g => decide (g = f)
  | _ => false

/-- The step on the one event `l` is refused as `r`. -/
def refuses (l : TraceLine) (s : State) (r : Refusal) : Bool :=
  match step (s.withTrace [l]) with
  | .refused q => decide (q = r)
  | _ => false

/-- A read in progress. -/
def rd (p : Slot) (acc : Byte) (n : Nat) : State := { State.reset with rdPos := p, rdAcc := acc, dlRead := some n }

/-- The inhibition hold. -/
def hold (b : Byte) (n : Nat) : State :=
  { State.reset with
    mode := .write, wrByte := b, wrStatus := .active, irqEn := false, sclDir := .output, sdaDir := .output, sclOut := false
    dlInhibit := some n }

/-- A clocked write in progress. -/
def wr (p : Slot) (b : Byte) (out : Level) (n : Nat) : State :=
  { State.reset with
    mode := .write, wrPos := p, wrByte := b, wrStatus := .active, sdaDir := (if p = 11#4 then .input else .output), sdaOut := out
    dlWrite := some n }

/-- A finished write. -/
def finished (b : Byte) (st : WrStatus) (out : Level) : State :=
  { State.reset with wrByte := b, wrStatus := st, lock := true, sdaOut := out }

/-- The host boundary of an idle block. -/
def boundary (cb : Callback) (en : Bool) (q : List Byte) : State := { State.reset with cb := cb, cbEnabled := en, queue := q }

theorem test_V1 : after (.E false) State.reset (rd 1#4 0x00#8 100) = true := by decide
theorem test_V2 : after (.E true) State.reset { State.reset with outs := [.err .invalidStartBit .read 0#4] } = true := by decide
theorem test_V3 : after (.E true) (rd 1#4 0x00#8 37) (rd 2#4 0x01#8 100) = true := by decide
theorem test_V5 : after (.E true) (rd 2#4 0x01#8 37) (rd 3#4 0x03#8 100) = true := by decide
theorem test_V6 : after (.E false) (rd 3#4 0x03#8 37) (rd 4#4 0x03#8 100) = true := by decide
theorem test_V7 : after (.E true) (rd 4#4 0x03#8 37) (rd 5#4 0x0B#8 100) = true := by decide
theorem test_V8 : after (.E true) (rd 5#4 0x0B#8 37) (rd 6#4 0x1B#8 100) = true := by decide
theorem test_R147_example : after (.E true) (rd 6#4 0x05#8 37) (rd 7#4 0x25#8 100) = true := by decide
theorem test_V10 : after (.E true) (rd 7#4 0x1B#8 37) (rd 8#4 0x5B#8 100) = true := by decide
theorem test_V11 : after (.E true) (rd 8#4 0x5B#8 37) (rd 9#4 0xDB#8 100) = true := by decide
/-- A data slot assigns a 0 as well (95_test_vectors.md, note on V4). -/
theorem test_data_slot_assigns : after (.E false) (rd 8#4 0xFF#8 37) (rd 9#4 0x7F#8 100) = true := by decide
theorem test_V12 : after (.E true) (rd 9#4 0xA5#8 37) (rd 10#4 0xA5#8 100) = true := by decide
theorem test_V13 : after (.E false) (rd 9#4 0xA5#8 37)
    { hold 0xFE#8 300 with outs := [.err .invalidParity .read 9#4] } = true := by decide
/-- V18, the byte queued by a successful allocation. -/
theorem test_V18 : after (.E true) { rd 10#4 0xA5#8 37 with allocDraws := [true] }
    { State.reset with queue := [0xA5#8], outs := [.rx 0xA5#8] } = true := by decide
/-- V21: an abort with resend consumes an uncollected completion. -/
theorem test_V21 : after (.E false) { rd 10#4 0x3C#8 37 with wrByte := 0x77#8, wrStatus := .success, lock := true }
    { hold 0xFE#8 300 with outs := [.err .invalidStopBit .read 10#4] } = true := by decide
theorem test_V24 : after .TR (rd 3#4 0x01#8 0) { State.reset with outs := [.err .timeout .read 3#4] } = true := by decide
theorem test_V25 : after .TR (rd 4#4 0x05#8 0) { hold 0xFE#8 300 with outs := [.err .timeout .read 4#4] } = true := by decide
theorem test_V29 : after (.W 0x00#8) (rd 6#4 0x15#8 37) { hold 0x00#8 300 with outs := [.result .accepted] } = true := by decide
theorem test_V31 : after (.W 0xED#8) (hold 0x5A#8 123)
    { hold 0x5A#8 123 with outs := [.err .busy .write 0#4, .result .busy] } = true := by decide
theorem test_V33 : after .TI (hold 0x5A#8 0) (wr 1#4 0x5A#8 false 1000) = true := by decide
theorem test_V34 : after (.E false) (hold 0x5A#8 55) (hold 0x5A#8 55) = true := by decide
theorem test_V35 : after (.E true) (wr 1#4 0x5A#8 false 37) (wr 2#4 0x5A#8 false 100) = true := by decide
theorem test_V36 : after (.E true) (wr 2#4 0x5A#8 false 37) (wr 3#4 0x5A#8 true 100) = true := by decide
theorem test_V37 : after (.E true) (wr 3#4 0x5A#8 true 37) (wr 4#4 0x5A#8 false 100) = true := by decide
theorem test_V38 : after (.E true) (wr 4#4 0x5A#8 false 37) (wr 5#4 0x5A#8 true 100) = true := by decide
theorem test_V39 : after (.E true) (wr 5#4 0x5A#8 true 37) (wr 6#4 0x5A#8 true 100) = true := by decide
theorem test_V40 : after (.E true) (wr 6#4 0x5A#8 true 37) (wr 7#4 0x5A#8 false 100) = true := by decide
theorem test_V41 : after (.E true) (wr 7#4 0x5A#8 false 37) (wr 8#4 0x5A#8 true 100) = true := by decide
theorem test_V42 : after (.E true) (wr 8#4 0x5A#8 true 37) (wr 9#4 0x5A#8 false 100) = true := by decide
theorem test_V44 : after (.E true) (wr 9#4 0xFE#8 true 37) (wr 10#4 0xFE#8 false 100) = true := by decide
theorem test_V45 : after (.E false) (wr 9#4 0x00#8 false 37) (wr 10#4 0x00#8 true 100) = true := by decide
theorem test_V47 : after (.E false) (wr 10#4 0xFE#8 false 37) (wr 11#4 0xFE#8 true 100) = true := by decide
theorem test_V48 : after (.E false) (wr 11#4 0x5A#8 true 37) { finished 0x5A#8 .success true with outs := [.done .success] } = true := by
  decide
theorem test_V49 : after (.E true) (wr 11#4 0x5A#8 true 37)
    { finished 0x5A#8 .failure true with outs := [.err .ackFailure .write 11#4, .done .failure] } = true := by decide
theorem test_V50 : after .TW (wr 1#4 0x5A#8 false 0)
    { finished 0x5A#8 .failure false with outs := [.err .timeout .write 1#4, .done .failure] } = true := by decide
theorem test_V53 : after .C (finished 0x5A#8 .success true)
    { State.reset with wrByte := 0x5A#8, outs := [.result (.status .success)] } = true := by decide
theorem test_V56 : after .C (wr 4#4 0x5A#8 true 37) { wr 4#4 0x5A#8 true 37 with outs := [.result .blocked] } = true := by decide
theorem test_Q2 : after (.CFG true) State.reset { boundary .present false [] with outs := [.result .ok] } = true := by decide
theorem test_Q15 : after (.CFG false) (boundary .present true [])
    { boundary .present true [] with outs := [.err .invalidArgument .read 0#4, .result .invalidArgument] } = true := by decide
/-- Q5, Q6 and Q9: what becomes of a byte. -/
theorem test_Q5 : deliver 0x2A#8 { boundary .present false [0x1C#8, 0xF0#8] with allocDraws := [false, true] } =
    boundary .present false [0x2A#8] := by decide
theorem test_Q6 : deliver 0x2B#8 { boundary .present false [0x2A#8] with allocDraws := [false, false] } =
    { boundary .present false [] with outs := [.err .allocationFailure .read 0#4] } := by decide
theorem test_Q9 : deliver 0x1C#8 (boundary .present true []) = { boundary .present true [] with outs := [.cb 0x1C#8] } := by decide
theorem test_Q8 : after .ENA (boundary .present false [0x2C#8]) (boundary .present true []) = true := by decide
theorem test_Q10 : after .DIS (boundary .present true []) (boundary .present false []) = true := by decide
theorem test_Q11 : after .RD (boundary .present false []) { boundary .present false [] with outs := [.result .empty] } = true := by decide
theorem test_Q12 : after .RD (boundary .present false [0xFA#8, 0xAA#8])
    { boundary .present false [0xAA#8] with outs := [.result (.byte 0xFA#8)] } = true := by decide
theorem test_X1 : after .RST { wr 6#4 0x5A#8 false 41 with sclPrev := false, cb := .present, cbEnabled := true, queue := [0x11#8] }
    State.reset = true := by decide
theorem test_K2 : after (.T false false none false) State.reset { rd 1#4 0x00#8 100 with sclPrev := false } = true := by decide
/-- K6: an edge in the tick its deadline would fire wins. -/
theorem test_K6 : after (.T false true none false) (rd 1#4 0x00#8 1) { rd 2#4 0x01#8 100 with sclPrev := false } = true := by decide
/-- K7: the block's own pull of SCL is not dispatched. -/
theorem test_K7 : after (.T true true none false) (hold 0x5A#8 300) { hold 0x5A#8 299 with sclPrev := false } = true := by decide
/-- K8: the hold ends, SCL still sampled 0. -/
theorem test_K8 : after (.T true true none false) { hold 0x5A#8 1 with sclPrev := false }
    { wr 1#4 0x5A#8 false 1000 with sclPrev := false } = true := by decide
/-- A host command in the tick of `Finish` sees the finished write (60_exceptions.md R275). -/
theorem test_tick_collects_in_the_tick_of_finish : after (.T false false (some .collect) false) (wr 11#4 0x5A#8 true 37)
    { State.reset with
      wrByte := 0x5A#8, sclPrev := false, outs := [.done .success, .result (.status .success)] } = true := by decide
/-- A tick in which `reset` is asserted takes no edge and no command (R300, D26). -/
theorem test_tick_with_reset : after (.T false false (some .collect) true) (finished 0x5A#8 .success false) State.reset = true := by
  decide

/-- The stops. -/
theorem test_faults : faults (.E false) (rd 11#4 0x00#8 5) .reservedReadSlot = true ∧
    faults (.E false) (wr 12#4 0x00#8 true 5) .reservedWriteSlot = true ∧
    faults .TR { hold 0x5A#8 3 with dlRead := some 0 } .readDeadlineInWriteMode = true ∧
    faults .TW { State.reset with dlWrite := some 0 } .writeDeadlineInReadMode = true ∧
    faults .TI { State.reset with dlInhibit := some 0 } .inhibitDeadlineOutsideHold = true := by decide
theorem test_refusals : refuses .TR State.reset .deadlineNotArmed = true ∧ refuses .TW State.reset .deadlineNotArmed = true ∧
    refuses .TI State.reset .deadlineNotArmed = true := by decide

/-- A finite RESEND_MAX used up: the abort is an abort without resend (41_read_frame.md R157). -/
theorem test_resend_bound : after (.E false) { rd 9#4 0xA5#8 37 with par := { resendMax := some 1 }, resendCnt := 1 }
    { State.reset with
      par := { resendMax := some 1 }, resendCnt := 1, outs := [.err .invalidParity .read 9#4] } = true := by decide

/-- A word placed for the next step is the one that runs, also where it needs its mode, slot and deadline (log entry 3). -/
theorem test_placed_word_runs :
    (match step (State.reset.withFetchWord 24 0x01B00) with | .next t => decide (t.wrStatus = .success) | _ => false) = true ∧
    (match step (State.reset.withFetchWord 24 0x06000) with | .next t => decide (t.wrPos = 1#4) | _ => false) = true ∧
    (match step (State.reset.withFetchWord 24 0x080ED) with | .next t => decide (t.wrByte = 0xED#8) | _ => false) = true := by decide

/-- `writeBlocking` and `read` over ticks (R231, R239): a refused write, and a read that times out. -/
theorem test_blocking_calls :
    (match writeBlocking 0xED#8 [⟨true, true, false⟩] (hold 0x5A#8 30) with | .returned .busy _ => true | _ => false) = true ∧
    (match readBlocking [⟨true, true, false⟩, ⟨true, true, false⟩] { State.reset with par := { tBlockRead := 2 } } with
      | .returned .timeout t => decide (t.outs = [.err .timeout .read 0#4])
      | _ => false) = true := by decide

/-- A `writeBlocking` whose wait is used up raises `Timeout` (R261, R264 (d)); one that waits through a `RESET` ends so too (R302). -/
theorem test_blocking_write_times_out :
    waitWrite 0 [] (wr 4#4 0x5A#8 true 37) =
      .returned .timeout { wr 4#4 0x5A#8 true 37 with outs := [.err .timeout .write 4#4] } ∧
    waitWrite 1 [⟨true, true, true⟩] (wr 4#4 0x5A#8 true 37) =
      .returned .timeout { State.reset with outs := [.err .timeout .read 0#4] } := by decide

/-- A `writeBlocking` under a held `reset` ends in its `Timeout` (R271: "never observe an unbounded hang"). -/
theorem test_blocking_write_under_held_reset :
    writeBlocking 0xED#8 [⟨true, true, true⟩, ⟨true, true, true⟩] { State.reset with par := { tBlockWrite := 1 } } =
      .returned .timeout { State.reset with par := { tBlockWrite := 1 }, outs := [.err .timeout .read 0#4] } := by decide

/-- A `read` waits through a quiet tick and returns the byte its second, last tick delivers (R239, 41_read_frame.md R151, R152). -/
theorem test_blocking_read_waits_for_its_byte :
    (match readBlocking [⟨true, true, false⟩, ⟨false, true, false⟩]
        { rd 10#4 0xA5#8 37 with par := { tBlockRead := 2 }, allocDraws := [true] } with
      | .returned (.byte b) t => decide (b = 0xA5#8 ∧ t.queue = [] ∧ t.outs = [.rx 0xA5#8, .result (.byte 0xA5#8)])
      | _ => false) = true := by decide

/-! ### Witnesses: hypotheses of the obligations that can be met -/

/-- A state of the invariant with a read in progress, at either end of the positions, its counter at the start value or at 1. -/
theorem inv_reading : Inv (rd 1#4 0x00#8 100) ∧ Inv (rd 10#4 0xA5#8 1) := by
  constructor <;> constructor <;> decide

/-- States of the invariant in the hold. -/
theorem inv_hold : Inv (hold 0x5A#8 300) ∧ Inv (hold 0x5A#8 2) ∧ Inv (hold 0x5A#8 1) := by
  refine ⟨?_, ?_, ?_⟩ <;> constructor <;> decide

/-- States of the invariant in a clocked write, at either end of the positions. -/
theorem inv_writing : Inv (wr 1#4 0x5A#8 false 1000) ∧ Inv (wr 11#4 0x5A#8 true 1) := by
  constructor <;> constructor <;> decide

/-- A state of the invariant that is idle, a finished write not yet collected. -/
theorem inv_idle : Inv (finished 0x5A#8 .success true) := by
  constructor <;> decide

/-- The invariant does not speak of the inputs. -/
theorem inv_with_inputs {s : State} (h : Inv s) (es : List Event) (c : Option HostCmd) :
    Inv { s with events := es, portHost := c } :=
  ⟨h.oneArmed, h.readRest, h.readGuard, h.writeRest, h.hold, h.clocked, h.positions, h.lockStatus, h.accClear, h.counters,
    h.resend, h.queue⟩

theorem witness_EncodeOfDecode : (EventWord.operandClean 0x01B01#17 = true ∧ decodeWord 0x01B01#17 = .ok (.wrAck true)) ∧
    EventWord.operandClean 0x080ED#17 = true ∧ EventWord.kind 0x080ED#17 ≠ 0#4 ∧ EventWord.mode 0x080ED#17 = .read ∧
    EventWord.slot 0x080ED#17 = 0#4 ∧ decodeWord 0x080ED#17 = .ok (.hWrite 0xED#8) := by decide

/-- The reserved events at the ends of their ranges. -/
theorem witness_ReservedWordsAreFaults :
    (∃ r, decodeWord 0x00B00#17 = .error r) ∧ (∃ r, decodeWord 0x01C00#17 = .error r) ∧ (∃ r, decodeWord 0x18000#17 = .error r) ∧
    (State.reset.withTrace [.E true]).events = [TraceLine.event (.E true)] ∧ (12#4 : BitVec 4).toNat ≥ 12 ∧
    (rd 11#4 0x00#8 1).mode = .read ∧ 11 ≤ (rd 11#4 0x00#8 1).rdPos.toNat ∧ 11 ≤ (rd 15#4 0x00#8 1).rdPos.toNat ∧
    (wr 12#4 0x00#8 true 1).mode = .write ∧ 12 ≤ (wr 12#4 0x00#8 true 1).wrPos.toNat ∧ 12 ≤ (wr 15#4 0x00#8 true 1).wrPos.toNat :=
  ⟨⟨.reservedReadSlot, rfl⟩, ⟨.reservedWriteSlot, rfl⟩, ⟨.reservedKind, rfl⟩, by decide⟩

theorem witness_StepRunsTheSelectedOperation :
    ((State.reset.withTrace [.E false]).events = [TraceLine.event (.E false)] ∧
      decodeWord (EventWord.make 0#4 .read 0#4 0x00#8) = .ok (.rdStart false)) ∧
    decodeWord (EventWord.make 12#4 .read 0#4 0x00#8) = .error .reservedKind ∧ State.reset.events = [] := by decide

theorem witness_EdgeRunsTheOperationOfItsSlot : (TraceLine.event (.E true)).kind = 0#4 ∧
    (readOps true)[(State.reset).rdPos.toNat]? = some (.rdStart true) ∧
    (readOps true)[(rd 10#4 0xA5#8 1).rdPos.toNat]? = some (.rdStop true) ∧
    (writeOps true)[(hold 0x5A#8 1).wrPos.toNat]? = some (.wrStart true) ∧
    (writeOps true)[(wr 11#4 0x5A#8 true 1).wrPos.toNat]? = some (.wrAck true) := by decide

theorem witness_EdgeOperationsOnlyWhereSelected :
    edgeInstr .read 10#4 true = .ok (.rdStop true) ∧ edgeInstr .write 11#4 false = .ok (.wrAck false) ∧
    ((rd 10#4 0xA5#8 1).mode = .read ∧ (rd 10#4 0xA5#8 1).pc = 10#4) ∧
    ¬((rd 9#4 0xA5#8 1).mode = .read ∧ (rd 9#4 0xA5#8 1).pc = 10#4) := by decide

theorem witness_ResetWinsItsTick : ({ wr 6#4 0x5A#8 true 41 with portReset := true } : State).portReset = true := by decide

theorem witness_ReadStartSlot : State.reset.mode = .read ∧ State.reset.rdPos = 0#4 ∧ State.reset.rdAcc = 0x00#8 ∧
    State.reset.dlRead = none := by decide

/-- Data1 and Data8; `StoresDataBit` holds of no other numbering of the slots. -/
theorem witness_ReadDataSlots : (rd 1#4 0x00#8 37).mode = .read ∧ (rd 1#4 0x00#8 37).rdPos = BitVec.ofNat 4 1 ∧
    (rd 8#4 0x5B#8 37).mode = .read ∧ (rd 8#4 0x5B#8 37).rdPos = BitVec.ofNat 4 8 := by decide

theorem witness_ReadParitySlot : (rd 9#4 0xA5#8 37).mode = .read ∧ (rd 9#4 0xA5#8 37).rdPos = 9#4 ∧
    true = evenParityBit (rd 9#4 0xA5#8 37).rdAcc ∧ false ≠ evenParityBit (rd 9#4 0xA5#8 37).rdAcc := by decide

theorem witness_ReadStopSlot : (rd 10#4 0xA5#8 37).mode = .read ∧ (rd 10#4 0xA5#8 37).rdPos = 10#4 := by decide

theorem witness_AbortsFollowTheResendBound : (rd 9#4 0xA5#8 37).mode = .read := by decide

theorem witness_DeliveryGoesToOneDestination :
    ((boundary .present true []).cb = .present ∧ (boundary .present true []).cbEnabled = true) ∧
    ¬((boundary .present false []).cb = .present ∧ (boundary .present false []).cbEnabled = true) ∧
    ¬((boundary .absent true []).cb = .present ∧ (boundary .absent true []).cbEnabled = true) := by decide

/-- One state per clause: below the cap by one, at the cap, at a cap of 0, and above a cap of 0. -/
theorem witness_QueueAddPurgesAndRetriesOnce :
    let below : State := { State.reset with par := { queueCap := some 2 }, queue := [0x11#8] }
    let full : State := { State.reset with par := { queueCap := some 1 }, queue := [0x11#8] }
    let none' : State := { State.reset with par := { queueCap := some 0 } }
    (below.par.queueCap ≠ some below.queue.length ∧ below.par.queueCap ≠ some 0) ∧
    (full.par.queueCap = some full.queue.length ∧ full.queue ≠ []) ∧
    (none'.par.queueCap = some 0 ∧ none'.queue = []) ∧
    (none'.par.queueCap = some 0 ∧ ({ none' with queue := [0x11#8] } : State).queue ≠ []) ∧
    allocOutcome { full with allocDraws := [false] } 0 = false ∧ allocOutcome { below with allocDraws := [false, true] } 1 = true := by
  decide

theorem witness_HostWriteAdmittedOrBusy : (finished 0x11#8 .failure false).mode = .read ∧ (hold 0x5A#8 1).mode = .write := by decide

theorem witness_InhibitionEnds : ((hold 0x5A#8 0).dlInhibit = some 0 ∧ (hold 0x5A#8 0).mode = .write ∧ (hold 0x5A#8 0).wrPos = 0#4) ∧
    (({ State.reset with dlInhibit := some 0 } : State).dlInhibit = some 0 ∧ ¬(State.reset.mode = .write ∧ State.reset.wrPos = 0#4)) ∧
    State.reset.dlInhibit = none := by decide

theorem witness_WriteDataSlots : (wr 1#4 0x5A#8 false 37).mode = .write ∧ (wr 1#4 0x5A#8 false 37).wrPos = BitVec.ofNat 4 1 ∧
    (wr 8#4 0x5A#8 true 37).mode = .write ∧ (wr 8#4 0x5A#8 true 37).wrPos = BitVec.ofNat 4 8 := by decide

theorem witness_WriteStartParityStopSlots : (hold 0x5A#8 5).mode = .write ∧ (hold 0x5A#8 5).wrPos = 0#4 ∧
    (wr 9#4 0x5A#8 true 5).mode = .write ∧ (wr 9#4 0x5A#8 true 5).wrPos = 9#4 ∧ (wr 10#4 0x5A#8 true 5).wrPos = 10#4 := by decide

theorem witness_WriteAckFinishes : (wr 11#4 0x5A#8 true 5).mode = .write ∧ (wr 11#4 0x5A#8 true 5).wrPos = 11#4 := by decide

theorem witness_ReadTimeoutEscalates : ((rd 3#4 0x01#8 0).dlRead = some 0 ∧ (rd 3#4 0x01#8 0).mode = .read ∧
      (rd 3#4 0x01#8 0).rdPos.toNat ≤ (rd 3#4 0x01#8 0).par.earlyAbortMaxPos) ∧
    (rd 4#4 0x05#8 0).par.earlyAbortMaxPos < (rd 4#4 0x05#8 0).rdPos.toNat ∧
    (({ hold 0x5A#8 5 with dlRead := some 0 } : State).dlRead = some 0 ∧ (hold 0x5A#8 5).mode = .write) ∧
    State.reset.dlRead = none := by decide

theorem witness_WriteTimeoutFinishes : ((wr 1#4 0x5A#8 false 0).dlWrite = some 0 ∧ (wr 1#4 0x5A#8 false 0).mode = .write) ∧
    (({ State.reset with dlWrite := some 0 } : State).dlWrite = some 0 ∧ State.reset.mode = .read) ∧ State.reset.dlWrite = none := by
  decide

theorem witness_CollectTakesTheLock : (finished 0x5A#8 .success true).lock = true ∧ State.reset.lock = false ∧
    ∃ t, exec .hCollect (finished 0x5A#8 .success true) = .next t := ⟨rfl, rfl, _, rfl⟩

theorem witness_SwitchingDeliveryFlushes : ∃ t, exec .hDisableCb (boundary .present true [0x11#8]) = .next t := ⟨_, rfl⟩

theorem witness_ReadPopsTheQueue : State.reset.queue = [] ∧ (boundary .present false [0xFA#8, 0xAA#8]).queue = 0xFA#8 :: [0xAA#8] := by
  decide

theorem witness_BlockingReadReturnsHeadOrTimesOut :
    (boundary .absent false [0xFA#8]).queue = 0xFA#8 :: [] ∧
    (let s : State := { finished 0x5A#8 .success true with par := { tBlockRead := 1 } }
     Inv s ∧ Idle s ∧ s.sclPrev = true ∧ s.queue = [] ∧ s.portHost = none ∧ s.portReset = false ∧
      s.par.tBlockRead ≤ [Sample.mk true false false].length ∧
      ∀ x ∈ [Sample.mk true false false], x.scl = true ∧ x.reset = false) := by
  refine ⟨rfl, ?_, by decide, rfl, rfl, rfl, rfl, by decide, by decide⟩
  constructor <;> decide

/-- Two ticks with the queue empty before each: the second delivers a byte; the second finds the wait used up; one of two has passed. -/
theorem witness_BlockingReadReturnsTheFirstByte :
    let s : State := { rd 10#4 0xA5#8 37 with par := { tBlockRead := 2 }, allocDraws := [true] }
    let r : State := { State.reset with par := { tBlockRead := 2 } }
    let quiet : Sample := ⟨true, true, false⟩
    let edge : Sample := ⟨false, true, false⟩
    (∃ u, ticksPass [quiet, edge] s = .next u ∧ u.queue = [0xA5#8] ∧ [quiet, edge].length ≤ s.par.tBlockRead) ∧
    (∃ u, ticksPass [quiet, quiet] r = .next u ∧ u.queue = [] ∧ [quiet, quiet].length = r.par.tBlockRead) ∧
    (∃ u, ticksPass [quiet] r = .next u ∧ u.queue = [] ∧ [quiet].length < r.par.tBlockRead) ∧
    (∀ k v, k < 2 → ticksPass ([quiet, edge].take k) s = .next v → v.queue = []) ∧
    ∀ k v, k < 2 → ticksPass ([quiet, quiet].take k) r = .next v → v.queue = [] := by
  refine ⟨⟨_, rfl, rfl, by decide⟩, ⟨_, rfl, rfl, rfl⟩, ⟨_, rfl, rfl, by decide⟩, ?_, ?_⟩ <;> intro k v hk h <;>
    obtain rfl | rfl : k = 0 ∨ k = 1 := by omega
  all_goals injection h with h; rw [← h]; rfl

/-- The hold, its last tick included, and a clocked write at its first and last slot, with and without an edge. -/
theorem witness_BlockingWriteReturnsBusyAtOnce :
    (Inv (hold 0x5A#8 2) ∧ (hold 0x5A#8 2).mode = .write ∧ (hold 0x5A#8 2).par.deadlinesPositive = true ∧
      (hold 0x5A#8 2).wrPos = 0#4 ∧ (hold 0x5A#8 2).dlInhibit = some (0 + 2) ∧ (hold 0x5A#8 2).portHost = none ∧
      (hold 0x5A#8 2).portReset = false) ∧
    (Inv (hold 0x5A#8 1) ∧ ¬(EdgeSeen (hold 0x5A#8 1) true ∧ (hold 0x5A#8 1).wrPos = 11#4) ∧ (hold 0x5A#8 1).dlWrite = none) ∧
    (Inv (wr 1#4 0x5A#8 false 1000) ∧ (wr 1#4 0x5A#8 false 1000).mode = .write ∧ EdgeSeen (wr 1#4 0x5A#8 false 1000) false ∧
      (wr 1#4 0x5A#8 false 1000).wrPos ≠ 11#4) ∧
    (Inv (wr 11#4 0x5A#8 true 2) ∧ ¬EdgeSeen (wr 11#4 0x5A#8 true 2) true ∧ (wr 11#4 0x5A#8 true 2).dlWrite ≠ some 0 ∧
      (wr 11#4 0x5A#8 true 2).dlWrite ≠ some 1) :=
  ⟨⟨inv_hold.2.1, by decide⟩, ⟨inv_hold.2.2, by simp [hold, State.reset], rfl⟩,
    ⟨inv_writing.1, rfl, by simp [EdgeSeen, wr, State.reset, sclLevel], by decide⟩,
    ⟨by constructor <;> decide, by simp [EdgeSeen, wr, State.reset, sclLevel], by decide, by decide⟩⟩

/-- A tick after which the write is admitted, one after which it is refused, one after which the wait goes on, one after which it ends, and
one with `reset`. -/
theorem witness_BlockingWriteFollowsItsTicks :
    (∃ u, bareTick ⟨true, true, false⟩ State.reset = .next u ∧ u.mode = .read) ∧
    (∃ u, bareTick ⟨true, true, false⟩ (hold 0x5A#8 1) = .next u ∧ u.mode = .write ∧ u.lock = false) ∧
    (∃ u, bareTick ⟨false, false, false⟩ (wr 11#4 0x5A#8 true 1) = .next u ∧ u.lock = true ∧ u.wrStatus = .success) ∧
    (∃ u, exec .reset { hold 0x5A#8 1 with portHost := none, portReset := false } = .next u) :=
  ⟨⟨_, rfl, rfl⟩, ⟨_, rfl, rfl, rfl⟩, ⟨_, rfl, rfl, rfl⟩, ⟨_, rfl⟩⟩

theorem witness_BlockingWriteEndsWithItsWrite : (Inv (wr 11#4 0x5A#8 true 1) ∧ (wr 11#4 0x5A#8 true 1).mode = .write ∧
      (wr 11#4 0x5A#8 true 1).wrPos = 11#4 ∧ EdgeSeen (wr 11#4 0x5A#8 true 1) false) ∧
    (¬EdgeSeen (wr 11#4 0x5A#8 true 1) true ∧ (wr 11#4 0x5A#8 true 1).dlWrite = some 1) :=
  ⟨⟨inv_writing.2, rfl, rfl, by simp [EdgeSeen, wr, State.reset, sclLevel]⟩, by simp [EdgeSeen, wr, State.reset, sclLevel], rfl⟩

/-- The parameter of the second clause is free: here T_BLOCK_WRITE is 1. -/
theorem witness_ResetLeavesAWaitingHostToItsTimeout : (Sample.mk false true true).reset = true ∧
    1 = ({ State.reset with par := { tBlockWrite := 1 } } : State).par.tBlockWrite ∧
    1 ≤ [Sample.mk true false false].length ∧ ∀ y ∈ [Sample.mk true false false], y.scl = true ∧ y.reset = false := by decide

/-- An idle block under a held `reset`, with parameters that make both calls short. -/
theorem witness_BlockingCallsReturnInBoundedTime :
    let s : State := { finished 0x5A#8 .success true with par := { tBlockWrite := 1, tBlockRead := 2 } }
    let xs : List Sample := [⟨true, true, true⟩, ⟨true, true, true⟩]
    Inv s ∧ s.par.tBlockWrite < xs.length ∧ s.par.tBlockRead ≤ xs.length := by
  refine ⟨?_, by decide, by decide⟩
  constructor <;> decide

/-- K1, and K7: an edge while `irq_en = 0`. -/
theorem witness_QuietTickOnlyCounts :
    (State.reset.portReset = false ∧ State.reset.portHost = none ∧ ¬EdgeSeen State.reset true ∧ State.reset.dlRead = none ∧
      State.reset.dlWrite = none ∧ State.reset.dlInhibit = none) ∧
    ((hold 0x5A#8 2).sclPrev = true ∧ sclLevel (hold 0x5A#8 2) true = false ∧ ¬EdgeSeen (hold 0x5A#8 2) true ∧
      (hold 0x5A#8 2).dlInhibit ≠ some 1) := by
  simp [EdgeSeen, hold, State.reset, sclLevel]

/-- K6. -/
theorem witness_TickHandlesTheEdge : EdgeSeen (rd 1#4 0x00#8 1) false ∧ (rd 1#4 0x00#8 1).portReset = false ∧
    (rd 1#4 0x00#8 1).portHost = none ∧
    edgeInstr (rd 1#4 0x00#8 1).mode (rd 1#4 0x00#8 1).pc (sdaLevel (rd 1#4 0x00#8 1) true) = .ok (.rdData1 true) ∧
    ∃ u, exec (.rdData1 true) (sampled (rd 1#4 0x00#8 1) false) = .next u ∧ u.dlRead ≠ some 0 ∧ u.dlWrite ≠ some 0 ∧
      u.dlInhibit ≠ some 0 :=
  ⟨by simp [EdgeSeen, rd, State.reset, sclLevel], rfl, rfl, by decide, _, rfl, by decide, by decide, by decide⟩

/-- K5, the write deadline, and K8; each without an edge. -/
theorem witness_DeadlineFiresInItsTick : (¬EdgeSeen (rd 1#4 0x00#8 1) true ∧ (rd 1#4 0x00#8 1).dlRead = some 1 ∧
      (rd 1#4 0x00#8 0).dlRead = some 0) ∧
    (¬EdgeSeen (wr 1#4 0x5A#8 false 1) true ∧ (wr 1#4 0x5A#8 false 1).dlRead = none ∧ (wr 1#4 0x5A#8 false 1).dlWrite = some 1) ∧
    (¬EdgeSeen (hold 0x5A#8 1) true ∧ (hold 0x5A#8 1).dlRead = none ∧ (hold 0x5A#8 1).dlWrite = none ∧
      (hold 0x5A#8 1).dlInhibit = some 1) := by
  simp [EdgeSeen, rd, wr, hold, State.reset, sclLevel]

/-- Data1, Data8 and the Stop slot of a read, and the first and the last slot of a write, in their deadline's tick. -/
theorem witness_EdgeWinsTheTie : (EdgeSeen (rd 1#4 0x00#8 1) false ∧ 1 ≤ (rd 1#4 0x00#8 1).rdPos.toNat) ∧
    (EdgeSeen (rd 8#4 0x5B#8 1) false ∧ (rd 8#4 0x5B#8 1).rdPos.toNat ≤ 8 ∧ (rd 8#4 0x5B#8 1).mode = .read ∧
      (rd 8#4 0x5B#8 1).dlRead = some 1 ∧ (rd 8#4 0x5B#8 1).dlWrite = none ∧ (rd 8#4 0x5B#8 1).dlInhibit = none ∧
      0 < (rd 8#4 0x5B#8 1).par.tReadBit) ∧
    (EdgeSeen (rd 10#4 0x5B#8 1) false ∧
      (readOps (sdaLevel (rd 10#4 0x5B#8 1) true))[(rd 10#4 0x5B#8 1).rdPos.toNat]? = some (.rdStop true) ∧
      (rd 10#4 0x5B#8 1).par.deadlinesPositive = true) ∧
    (EdgeSeen (wr 1#4 0x5A#8 false 1) false ∧ (wr 1#4 0x5A#8 false 1).dlWrite = some 1 ∧ (wr 1#4 0x5A#8 false 1).dlRead = none ∧
      (wr 1#4 0x5A#8 false 1).dlInhibit = none ∧ (wr 1#4 0x5A#8 false 1).mode = .write ∧
      (writeOps (sdaLevel (wr 1#4 0x5A#8 false 1) true))[(wr 1#4 0x5A#8 false 1).wrPos.toNat]? = some (.wrData1 false)) ∧
    (EdgeSeen (wr 11#4 0x5A#8 true 1) false ∧
      (writeOps (sdaLevel (wr 11#4 0x5A#8 true 1) true))[(wr 11#4 0x5A#8 true 1).wrPos.toNat]? = some (.wrAck true)) := by
  simp [EdgeSeen, rd, wr, State.reset, sclLevel, sdaLevel, Params.default, Params.deadlinesPositive, readOps, writeOps]

/-- A tick that completes and one that stops. -/
theorem witness_HostCommandRunsLast :
    (∃ u, exec (.tick true true) { rd 1#4 0x00#8 5 with portHost := none } = .next u) ∧
    (exec (.tick true true) { hold 0x5A#8 5 with portHost := none, dlRead := some 1 } = .fault .readDeadlineInWriteMode) :=
  ⟨⟨_, rfl⟩, rfl⟩

theorem witness_TickAlwaysCompletes : Inv (hold 0x5A#8 1) ∧ Inv (rd 10#4 0xA5#8 1) ∧ Inv (wr 11#4 0x5A#8 true 1) :=
  ⟨inv_hold.2.2, inv_reading.2, inv_writing.2⟩

theorem witness_EdgesAreLostDuringTheHold : Inv (hold 0x5A#8 2) ∧ InHold (hold 0x5A#8 2) ∧ (hold 0x5A#8 2).portReset = false ∧
    (hold 0x5A#8 2).portHost = none ∧ (hold 0x5A#8 2).dlInhibit = some (0 + 2) := ⟨inv_hold.2.1, by decide, rfl, rfl, rfl⟩

theorem witness_TicksLeaveNoDeadlineAtZero : Inv (hold 0x5A#8 1) ∧ DeadlinesPending (hold 0x5A#8 1) ∧
    (hold 0x5A#8 1).par.deadlinesPositive = true ∧ ∃ t, exec (.tick true true) (hold 0x5A#8 1) = .next t :=
  ⟨inv_hold.2.2, by decide, by decide, _, rfl⟩

theorem witness_EveryStepKeepsTheInvariant :
    Inv { finished 0x5A#8 .success true with events := [TraceLine.event (.E false)], portHost := none } ∧
    ∃ t, step { finished 0x5A#8 .success true with events := [TraceLine.event (.E false)], portHost := none } = .next t :=
  ⟨inv_with_inputs inv_idle _ _, _, rfl⟩

/-- An edge, each deadline, a tick and the last host kind are admitted somewhere in the invariant; so are kinds up to 11 and no more. -/
theorem witness_AdmittedEventsNeverStopTheBlock :
    admitted (TraceLine.event (.E true)) (finished 0x5A#8 .success true) = true ∧
    admitted (TraceLine.event .TR) (rd 10#4 0xA5#8 1) = true ∧ admitted (TraceLine.event .TW) (wr 11#4 0x5A#8 true 1) = true ∧
    admitted (TraceLine.event .TI) (hold 0x5A#8 1) = true ∧ admitted (TraceLine.event .RD) State.reset = true ∧
    admitted ⟨12#4, 0x00#8, none, false⟩ State.reset = false ∧
    Inv { hold 0x5A#8 1 with events := [TraceLine.event .TI], portHost := none } :=
  ⟨rfl, rfl, rfl, rfl, rfl, rfl, inv_with_inputs inv_hold.2.2 _ _⟩

theorem witness_InterruptOffExactlyInTheHold : (Inv (hold 0x5A#8 1) ∧ (hold 0x5A#8 1).irqEn = false) ∧
    (Inv (wr 1#4 0x5A#8 false 1000) ∧ EdgeSeen (wr 1#4 0x5A#8 false 1000) false) :=
  ⟨⟨inv_hold.2.2, rfl⟩, inv_writing.1, by simp [EdgeSeen, wr, State.reset, sclLevel]⟩

/-- Each of the writers. -/
theorem witness_InterruptEnableWriters :
    (∃ t, exec .toInhibit (hold 0x5A#8 0) = .next t ∧ t.irqEn ≠ (hold 0x5A#8 0).irqEn) ∧
    (∃ t, exec (.hWrite 0x5A#8) State.reset = .next t ∧ t.irqEn ≠ State.reset.irqEn) ∧
    (∃ t, exec (.rdParity false) (rd 9#4 0xA5#8 1) = .next t ∧ t.irqEn ≠ (rd 9#4 0xA5#8 1).irqEn) ∧
    (∃ t, exec (.rdStop false) (rd 10#4 0xA5#8 1) = .next t ∧ t.irqEn ≠ (rd 10#4 0xA5#8 1).irqEn) ∧
    (∃ t, exec .toRead (rd 4#4 0x05#8 0) = .next t ∧ t.irqEn ≠ (rd 4#4 0x05#8 0).irqEn) :=
  ⟨⟨_, rfl, by decide⟩, ⟨_, rfl, by decide⟩, ⟨_, rfl, by decide⟩, ⟨_, rfl, by decide⟩, ⟨_, rfl, by decide⟩⟩

/-- Both directions, by either way each. -/
theorem witness_ModeChangesOnlyByWriteAndFinish :
    (∃ t, exec (.hWrite 0x5A#8) (rd 6#4 0x15#8 1) = .next t ∧ t.mode = .write) ∧
    (∃ t, exec .toRead (rd 4#4 0x05#8 0) = .next t ∧ t.mode = .write) ∧
    (∃ t, exec (.wrAck true) (wr 11#4 0x5A#8 true 1) = .next t ∧ t.mode = .read) ∧
    (∃ t, exec .toWrite (wr 1#4 0x5A#8 false 0) = .next t ∧ t.mode = .read) :=
  ⟨⟨_, rfl, rfl⟩, ⟨_, rfl, rfl⟩, ⟨_, rfl, rfl⟩, ⟨_, rfl, rfl⟩⟩

theorem witness_LockTransitions :
    (∃ t, exec (.wrAck false) (wr 11#4 0x5A#8 true 1) = .next t ∧ (wr 11#4 0x5A#8 true 1).lock = false ∧ t.lock = true) ∧
    (∃ t, exec .hCollect (finished 0x5A#8 .success true) = .next t ∧ t.lock = false) ∧
    (∃ t, exec (.hWrite 0x5A#8) (finished 0x5A#8 .success true) = .next t ∧ t.lock = false) :=
  ⟨⟨_, rfl, rfl, rfl⟩, ⟨_, rfl, rfl⟩, ⟨_, rfl, rfl⟩⟩

theorem witness_BytesComeOnlyFromAcceptedStops :
    ∃ t, exec (.rdStop true) { rd 10#4 0xA5#8 1 with cb := .present, cbEnabled := true } = .next t ∧
      Output.rx 0xA5#8 ∈ t.outs.drop 0 ∧ Output.cb 0xA5#8 ∈ t.outs.drop 0 := ⟨_, rfl, by decide, by decide⟩

theorem witness_ParametersFixedOutputsGrow : ∃ t, exec (.tick false true) (rd 1#4 0x00#8 1) = .next t := ⟨_, rfl⟩

theorem witness_ReadRoundTrip :
    let s : State := { finished 0x5A#8 .success true with
      events := (rxFrame 0xA5#8).map TraceLine.event ++ [TraceLine.event .RD], portHost := none }
    Inv s ∧ s.mode = .read ∧ s.rdPos = 0#4 ∧ s.events = (rxFrame 0xA5#8).map TraceLine.event ++ [TraceLine.event .RD] :=
  ⟨inv_with_inputs inv_idle _ _, rfl, rfl, rfl⟩

theorem witness_WriteRoundTrip :
    let s : State := { finished 0x5A#8 .success true with
      events := (TraceLine.W 0x5A#8 :: txClk true).map TraceLine.event ++ [TraceLine.event .C], portHost := none }
    Inv s ∧ s.mode = .read ∧ s.rdPos = 0#4 ∧
      s.events = (TraceLine.W 0x5A#8 :: txClk true).map TraceLine.event ++ [TraceLine.event .C] :=
  ⟨inv_with_inputs inv_idle _ _, rfl, rfl, rfl⟩

/-- Ticks as input, their number `n`. -/
def ticks (n : Nat) : List Event := List.replicate n (TraceLine.event (.T true true none false))

theorem ticks_length (n : Nat) : (ticks n).length = n := List.length_replicate

theorem ticks_only (n k : Nat) : TicksOnly ((ticks n).take k) := by
  intro e he
  have : e = TraceLine.event (.T true true none false) := by
    have := List.mem_of_mem_take he
    exact List.eq_of_mem_replicate this
  subst this
  exact ⟨rfl, rfl⟩

theorem witness_HoldLastsExactly :
    let s : State := { hold 0x5A#8 1 with events := ticks 1, portHost := none }
    Inv s ∧ InHold s ∧ s.dlInhibit = some 1 ∧ 0 < 1 ∧ 1 ≤ s.events.length ∧ TicksOnly (s.events.take 1) :=
  ⟨inv_with_inputs inv_hold.2.2 _ _, by decide, rfl, by decide, by decide, ticks_only 1 1⟩

theorem witness_WriteFinishesInBoundedTime :
    let s : State := { wr 11#4 0x5A#8 true 1 with events := ticks 2300, portHost := none }
    Inv s ∧ DeadlinesPending s ∧ s.par.deadlinesPositive = true ∧ s.mode = .write ∧
      s.par.tInhibit + s.par.tWriteFirst + 10 * s.par.tWriteBit ≤ s.events.length ∧
      TicksOnly (s.events.take (s.par.tInhibit + s.par.tWriteFirst + 10 * s.par.tWriteBit)) :=
  ⟨inv_with_inputs inv_writing.2 _ _, by decide, by decide, rfl, (ticks_length 2300).ge, ticks_only _ _⟩

theorem witness_ReadFrameEndsInBoundedTime :
    let s : State := { rd 1#4 0x00#8 100 with events := ticks 1000, portHost := none }
    Inv s ∧ DeadlinesPending s ∧ s.par.deadlinesPositive = true ∧ s.mode = .read ∧ s.rdPos ≠ 0#4 ∧
      10 * s.par.tReadBit ≤ s.events.length ∧ TicksOnly (s.events.take (10 * s.par.tReadBit)) :=
  ⟨inv_with_inputs inv_reading.1 _ _, by decide, by decide, rfl, by decide, (ticks_length 1000).ge,
    ticks_only _ _⟩

end Sys2Proof.Tests
end

section
/-! SUPPORT. Proofs of the statements of 00_scope.md: the parity of a byte (R16), and what no operation changes (R10, 60_exceptions.md
R262). -/

namespace Sys2Proof.Machine

/-! ### Parity (00_scope.md R16) -/

/-- The XOR over a list is the oddness of a count: each element that satisfies `p` flips both. -/
theorem foldr_xor_iff_filter_length_odd {α : Type} (p : α → Bool) (l : List α) :
    l.foldr (fun a b => p a ^^ b) false = true ↔ (l.filter p).length % 2 = 1 := by
  induction l with
  | nil => simp
  | cons a l ih =>
    cases h : p a with
    | false => simpa [h] using ih
    | true =>
      rw [List.foldr_cons, List.filter_cons_of_pos h, List.length_cons, h, Bool.true_xor, Bool.not_eq_true', ← Bool.not_eq_true, ih]
      omega

theorem par8_eq_foldr (v : Byte) : par8 v = (List.range 8).foldr (fun j b => v.getLsbD j ^^ b) false := by
  simp [par8, bitOf, List.range_succ]

theorem par8_iff_bitCount_odd (v : Byte) : par8 v = true ↔ bitCount v % 2 = 1 := by
  rw [par8_eq_foldr]
  exact foldr_xor_iff_filter_length_odd _ _

theorem wireParity_iff_bitCount_even (v : Byte) : wireParity v = true ↔ bitCount v % 2 = 0 := by
  rw [wireParity, Bool.not_eq_true', ← Bool.not_eq_true, par8_iff_bitCount_odd, Nat.mod_two_not_eq_one]

/-- Settles O53: `par8` is the XOR over the bits whose set ones `bitCount` counts. -/
theorem parityBitOfAByte : Obligations.ParityBitOfAByte :=
  fun v => ⟨par8_iff_bitCount_odd v, wireParity_iff_bitCount_even v⟩

/-! ### What every operation keeps (00_scope.md R10, 60_exceptions.md R262) -/

/-- `t` is `s` gone on: same parameters, same events to come, and the outputs of `s` followed by new ones. -/
structure State.Extends (s t : State) : Prop where
  par : t.par = s.par
  events : t.events = s.events
  outs : s.outs <+: t.outs

namespace State.Extends

variable {s t u : State}

theorem trans (h : s.Extends t) (h' : t.Extends u) : s.Extends u :=
  ⟨h'.par.trans h.par, h'.events.trans h.events, h.outs.trans h'.outs⟩

/-- A state that differs in registers alone. -/
theorem of_outs_eq (hp : t.par = s.par) (he : t.events = s.events) (ho : t.outs = s.outs) : s.Extends t :=
  ⟨hp, he, [], by rw [ho, List.append_nil]⟩

theorem refl (s : State) : s.Extends s := of_outs_eq rfl rfl rfl

/-- A state that differs in registers and has put out `os` more. -/
theorem of_outs_append (os : List Output) (hp : t.par = s.par) (he : t.events = s.events) (ho : t.outs = s.outs ++ os) :
    s.Extends t :=
  ⟨hp, he, os, ho.symm⟩

theorem emit (h : s.Extends t) (o : Output) : s.Extends (t.emit o) :=
  ⟨h.par, h.events, h.outs.trans ⟨[o], rfl⟩⟩

theorem raise (h : s.Extends t) (k : ErrorKind) : s.Extends (t.raise k) := h.emit _

/-- An edge operation extends the state where what it runs does. -/
theorem of_atSlot {m : Mode} {k : Slot} {f : State → State} (hf : s.Extends (f s)) (h : atSlot m k f s = .next t) :
    s.Extends t := by
  obtain ⟨-, rfl⟩ := atSlot_eq_next.mp h
  exact hf

end State.Extends

variable {s t : State}

theorem setDeadline_extends (d : Deadline) (v : Option Nat) (s : State) : s.Extends (s.setDeadline d v) := by
  cases d <;> exact .of_outs_eq rfl rfl rfl

/-! ### The read side -/

theorem readReset_extends (s : State) : s.Extends (readReset s) := .of_outs_eq rfl rfl rfl

theorem readEpilogue_extends (s : State) : s.Extends (readEpilogue s) := .of_outs_eq rfl rfl rfl

theorem countResend_extends (s : State) : s.Extends (countResend s) := by
  unfold countResend
  split
  · exact .refl s
  · exact .of_outs_eq rfl rfl rfl

theorem initiateWrite_extends (b : Byte) (s : State) : s.Extends (initiateWrite b s).1 := by
  cases hm : s.mode with
  | read =>
    rw [initiateWrite_read b hm, admitWrite_eq]
    exact .of_outs_eq rfl rfl rfl
  | write =>
    rw [initiateWrite_write b hm]
    exact .raise (.refl s) .busy

theorem abortResend_extends (s : State) : s.Extends (abortResend s) := by
  simp only [abortResend]
  split
  · exact ((readReset_extends s).trans (countResend_extends _)).trans (initiateWrite_extends _ _)
  · exact readReset_extends s

theorem deliver_extends (b : Byte) (s : State) : s.Extends (deliver b s) := by
  obtain ⟨q, ds, n, os, h⟩ := deliver_frame b s
  rw [h]
  exact .of_outs_append os rfl rfl rfl

theorem finalize_extends (s : State) : s.Extends (finalize s) := by
  rw [finalize_eq]
  refine .trans ?_ (deliver_extends _ _)
  exact .of_outs_append [.rx s.rdAcc] rfl rfl rfl

theorem readStartSlot_extends (d : Level) (s : State) : s.Extends (readStartSlot d s) := by
  simp only [readStartSlot]
  split
  · exact .trans (.raise (setDeadline_extends _ _ s) _) (readReset_extends _)
  · exact (setDeadline_extends _ _ s).trans (readEpilogue_extends _)

theorem readDataSlot_extends (j : Nat) (d : Level) (s : State) : s.Extends (readDataSlot j d s) := .of_outs_eq rfl rfl rfl

theorem readParitySlot_extends (d : Level) (s : State) : s.Extends (readParitySlot d s) := by
  simp only [readParitySlot]
  split
  · exact (setDeadline_extends _ _ s).trans (readEpilogue_extends _)
  · exact .trans (.raise (setDeadline_extends _ _ s) _) (abortResend_extends _)

theorem readStopSlot_extends (d : Level) (s : State) : s.Extends (readStopSlot d s) := by
  simp only [readStopSlot]
  split
  · exact (setDeadline_extends _ _ s).trans (finalize_extends _)
  · exact .trans (.raise (setDeadline_extends _ _ s) _) (abortResend_extends _)

theorem readTimeout_extends (s : State) : s.Extends (readTimeout s) := by
  have h : s.Extends ((s.setDeadline .read none).raise .timeout) := .raise (setDeadline_extends _ _ s) _
  simp only [readTimeout]
  split
  · exact h.trans (readReset_extends _)
  · exact h.trans (abortResend_extends _)

/-! ### The write side -/

theorem finish_extends (c : Completion) (s : State) : s.Extends (finish c s) :=
  .of_outs_append [.done c] rfl rfl rfl

theorem writeDriveSlot_extends (v : Level) (s : State) : s.Extends (writeDriveSlot v s) := .of_outs_eq rfl rfl rfl

theorem writeStopSlot_extends (s : State) : s.Extends (writeStopSlot s) := .of_outs_eq rfl rfl rfl

theorem writeAckSlot_extends (d : Level) (s : State) : s.Extends (writeAckSlot d s) := by
  simp only [writeAckSlot]
  split
  · exact .trans (.raise (setDeadline_extends _ _ s) _) (finish_extends _ _)
  · exact (setDeadline_extends _ _ s).trans (finish_extends _ _)

theorem releaseClock_extends (s : State) : s.Extends (releaseClock s) := .of_outs_eq rfl rfl rfl

/-! ### The host operations that branch -/

theorem execHCollect_extends (h : execHCollect s = .next t) : s.Extends t := by
  unfold execHCollect at h
  split at h <;> cases h
  · exact .of_outs_append [_] rfl rfl rfl
  · exact .emit (.refl s) _

theorem execHConfigure_extends {p : Bool} (h : execHConfigure p s = .next t) : s.Extends t := by
  unfold execHConfigure at h
  split at h <;> cases h
  · exact .of_outs_append [_] rfl rfl rfl
  · exact .emit (.raise (.refl s) _) _

theorem execHRead_extends (h : execHRead s = .next t) : s.Extends t := by
  unfold execHRead at h
  split at h <;> cases h
  · exact .emit (.refl s) _
  · exact .of_outs_append [_] rfl rfl rfl

/-! ### The operations of one event -/

theorem exec_extends_of_singleEvent {i : Instr} (hi : singleEvent i = true) (h : exec i s = .next t) : s.Extends t := by
  cases i with
  | rdStart d => exact .of_atSlot (readStartSlot_extends d s) h
  | rdData1 d | rdData2 d | rdData3 d | rdData4 d | rdData5 d | rdData6 d | rdData7 d | rdData8 d =>
    exact .of_atSlot (readDataSlot_extends _ d s) h
  | rdParity d => exact .of_atSlot (readParitySlot_extends d s) h
  | rdStop d => exact .of_atSlot (readStopSlot_extends d s) h
  | wrStart d => exact .of_atSlot (f := fun s => s.cancel .write) (setDeadline_extends .write none s) h
  | wrData1 d | wrData2 d | wrData3 d | wrData4 d | wrData5 d | wrData6 d | wrData7 d | wrData8 d | wrParity d =>
    exact .of_atSlot (writeDriveSlot_extends _ s) h
  | wrStop d => exact .of_atSlot (writeStopSlot_extends s) h
  | wrAck d => exact .of_atSlot (writeAckSlot_extends d s) h
  | toRead =>
    obtain ⟨-, -, rfl⟩ := execToRead_eq_next.mp h
    exact readTimeout_extends s
  | toWrite =>
    obtain ⟨-, -, rfl⟩ := execToWrite_eq_next.mp h
    exact .trans (.raise (setDeadline_extends _ _ s) _) (finish_extends _ _)
  | toInhibit =>
    obtain ⟨-, -, rfl⟩ := execToInhibit_eq_next.mp h
    exact releaseClock_extends s
  | hWrite b =>
    cases h
    exact .emit (initiateWrite_extends b s) _
  | hCollect => exact execHCollect_extends h
  | hConfigure p => exact execHConfigure_extends h
  | hEnableCb | hDisableCb =>
    cases h
    exact .of_outs_eq rfl rfl rfl
  | hRead => exact execHRead_extends h
  | reset | tick c d => cases hi

theorem singleEvent_of_edgeInstr {m : Mode} {k : Slot} {d : Level} {i : Instr} (h : edgeInstr m k d = .ok i) :
    singleEvent i = true := by
  cases m with
  | read => simp only [edgeInstr] at h; split at h <;> cases h <;> rfl
  | write => simp only [edgeInstr] at h; split at h <;> cases h <;> rfl

theorem singleEvent_toInstr (c : HostCmd) : singleEvent c.toInstr = true := by cases c <;> rfl

/-! ### `RESET` and the phases of a tick -/

theorem resetRegisters_extends (s : State) : s.Extends (resetRegisters s) := .of_outs_eq rfl rfl rfl

theorem dispatchEdge_extends {d : Level} (h : dispatchEdge d s = .next t) : s.Extends t := by
  rw [dispatchEdge_eq] at h
  cases he : edgeInstr s.mode s.pc d with
  | ok i =>
    rw [he] at h
    exact exec_extends_of_singleEvent (singleEvent_of_edgeInstr he) h
  | error r => rw [he] at h; cases h

theorem countPhase_extends (s : State) : s.Extends (countPhase s) := .of_outs_eq rfl rfl rfl

theorem edgePhase_extends {c d : Level} (h : edgePhase c d s = .next t) : s.Extends t := by
  have sampling : s.Extends { s with sclPrev := s.lineRead .scl c } := .of_outs_eq rfl rfl rfl
  cases he : fallingEdge s.sclPrev (s.lineRead .scl c) && s.irqEn with
  | false =>
    rw [edgePhase_quiet c d he] at h
    cases h
    exact sampling
  | true =>
    rw [edgePhase_edge c d he] at h
    exact sampling.trans (dispatchEdge_extends h)

theorem deadlinePhase_extends (h : deadlinePhase s = .next t) : s.Extends t := by
  obtain ⟨-, h⟩ | ⟨-, -, h⟩ | ⟨-, -, -, h⟩ | ⟨-, -, -, rfl⟩ := deadlinePhase_cases h
  · exact exec_extends_of_singleEvent (i := .toRead) rfl h
  · exact exec_extends_of_singleEvent (i := .toWrite) rfl h
  · exact exec_extends_of_singleEvent (i := .toInhibit) rfl h
  · exact .refl t

theorem hostPhase_extends (h : hostPhase s = .next t) : s.Extends t := by
  obtain ⟨-, rfl⟩ | ⟨c, -, h⟩ := hostPhase_cases h
  · exact .refl t
  · have taken : s.Extends { s with portHost := none } := .of_outs_eq rfl rfl rfl
    rw [runHost_eq_exec] at h
    exact taken.trans (exec_extends_of_singleEvent (singleEvent_toInstr c) h)

theorem execTick_extends {c d : Level} (h : execTick c d s = .next t) : s.Extends t := by
  obtain ⟨-, rfl⟩ | ⟨-, u, v, hu, hv, ht⟩ := execTick_cases h
  · have taken : s.Extends { s with portHost := none, portReset := false } := .of_outs_eq rfl rfl rfl
    exact taken.trans (resetRegisters_extends _)
  · have counted_edge : s.Extends u := (countPhase_extends s).trans (edgePhase_extends hu)
    exact (counted_edge.trans (deadlinePhase_extends hv)).trans (hostPhase_extends ht)

theorem exec_extends {i : Instr} (h : exec i s = .next t) : s.Extends t := by
  cases hi : singleEvent i with
  | true => exact exec_extends_of_singleEvent hi h
  | false =>
    cases i with
    | tick c d => exact execTick_extends h
    | reset =>
      cases h
      exact resetRegisters_extends s
    | _ => cases hi

/-- Settles O52: every completed operation extends the state; a tick is a chain of phases that do. -/
theorem parametersFixedOutputsGrow : Obligations.ParametersFixedOutputsGrow := by
  intro i s t h
  obtain ⟨par, events, new, outs⟩ := exec_extends h
  exact ⟨par, events, new, outs.symm⟩

end Sys2Proof.Machine
end

section
/-! SUPPORT. Proofs of the statements of 10_state.md: the three shapes a state of the invariant can have (section 9, R43 to R49), how each
operation takes one shape to another, the writers of `mode` (R28), and the reset values (R42). -/

namespace Sys2Proof.Machine

variable {s t : State}

/-! ### The shapes of the invariant -/

/-- What the invariant says in Read mode (10_state.md R44, R45). -/
structure Reading (s : State) : Prop where
  mode : s.mode = .read
  wrPos : s.wrPos = 0#4
  dlWrite : s.dlWrite = none
  dlInhibit : s.dlInhibit = none
  sclDir : s.sclDir = .input
  sdaDir : s.sdaDir = .input
  irqEn : s.irqEn = true
  notActive : s.wrStatus ≠ .active
  lockStatus : LockMeansFinished s
  guard : s.dlRead ≠ none ↔ s.rdPos ≠ 0#4
  accClear : s.rdPos = 0#4 → s.rdAcc = 0x00#8
  inFrame : s.rdPos.toNat ≤ 10
  counter : ∀ n, s.dlRead = some n → n ≤ s.par.tReadBit

/-- What the invariant says in Write mode, at any slot (R46). -/
structure Writing (s : State) : Prop where
  mode : s.mode = .write
  rdPos : s.rdPos = 0#4
  rdAcc : s.rdAcc = 0x00#8
  dlRead : s.dlRead = none
  active : s.wrStatus = .active
  lock : s.lock = false

/-- What the invariant says in the inhibition hold (R47). -/
structure Holding (s : State) : Prop extends Writing s where
  wrPos : s.wrPos = 0#4
  irqEn : s.irqEn = false
  sclDir : s.sclDir = .output
  sclOut : s.sclOut = false
  sdaDir : s.sdaDir = .output
  sdaOut : s.sdaOut = true
  dlWrite : s.dlWrite = none
  armed : s.dlInhibit ≠ none
  counter : ∀ n, s.dlInhibit = some n → n ≤ s.par.tInhibit

/-- What the invariant says once the device clocks the write (R48). -/
structure Clocking (s : State) : Prop extends Writing s where
  wrPos : s.wrPos ≠ 0#4
  inFrame : s.wrPos.toNat ≤ 11
  irqEn : s.irqEn = true
  sclDir : s.sclDir = .input
  sdaDir : s.sdaDir = .output ↔ s.wrPos.toNat ≤ 10
  dlInhibit : s.dlInhibit = none
  armed : s.dlWrite ≠ none
  counter : ∀ n, s.dlWrite = some n → n ≤ if s.wrPos = 1#4 then s.par.tWriteFirst else s.par.tWriteBit

/-- The part of the invariant that does not depend on the mode. -/
structure Bounded (s : State) : Prop where
  resend : ResendBounded s
  queue : QueueBounded s

theorem Writing.lockStatus (h : Writing s) : LockMeansFinished s := by simp [LockMeansFinished, h.lock, h.active]

theorem Reading.inv (h : Reading s) (hb : Bounded s) : Inv s where
  oneArmed := by simp [AtMostOneArmed, h.dlWrite, h.dlInhibit]
  readRest _ := ⟨h.wrPos, h.dlWrite, h.dlInhibit, h.sclDir, h.sdaDir, h.irqEn, h.notActive⟩
  readGuard _ := h.guard
  writeRest := by simp [WriteModeRest, h.mode]
  hold := by simp [HoldShape, InHold, h.mode]
  clocked := by simp [ClockedWriteShape, h.mode]
  positions := ⟨h.inFrame, by simp [h.wrPos]⟩
  lockStatus := h.lockStatus
  accClear _ := h.accClear
  counters := ⟨h.counter, by simp [h.dlWrite], by simp [h.dlInhibit]⟩
  resend := hb.resend
  queue := hb.queue

theorem Holding.inv (h : Holding s) (hb : Bounded s) : Inv s where
  oneArmed := by simp [AtMostOneArmed, h.dlRead, h.dlWrite]
  readRest := by simp [ReadModeRest, h.mode]
  readGuard := by simp [ReadDeadlineGuardsFrame, h.mode]
  writeRest _ := ⟨h.rdPos, h.rdAcc, h.dlRead, h.active, h.lock⟩
  hold _ := ⟨h.irqEn, h.sclDir, h.sclOut, h.sdaDir, h.sdaOut, h.armed, h.dlWrite⟩
  clocked := by simp [ClockedWriteShape, h.wrPos]
  positions := by simp [PositionsInFrame, h.rdPos, h.wrPos]
  lockStatus := h.lockStatus
  accClear _ _ := h.rdAcc
  counters := ⟨by simp [h.dlRead], by simp [h.dlWrite], h.counter⟩
  resend := hb.resend
  queue := hb.queue

theorem Clocking.inv (h : Clocking s) (hb : Bounded s) : Inv s where
  oneArmed := by simp [AtMostOneArmed, h.dlRead, h.dlInhibit]
  readRest := by simp [ReadModeRest, h.mode]
  readGuard := by simp [ReadDeadlineGuardsFrame, h.mode]
  writeRest _ := ⟨h.rdPos, h.rdAcc, h.dlRead, h.active, h.lock⟩
  hold := by simp [HoldShape, InHold, h.wrPos]
  clocked _ := ⟨h.irqEn, h.sclDir, h.armed, h.dlInhibit, h.sdaDir⟩
  positions := ⟨by simp [h.rdPos], h.inFrame⟩
  lockStatus := h.lockStatus
  accClear _ _ := h.rdAcc
  counters := ⟨by simp [h.dlRead], h.counter, by simp [h.dlInhibit]⟩
  resend := hb.resend
  queue := hb.queue

namespace Inv

theorem bounded (h : Inv s) : Bounded s := ⟨h.resend, h.queue⟩

theorem reading (h : Inv s) (hm : s.mode = .read) : Reading s := by
  obtain ⟨wrPos, dlWrite, dlInhibit, sclDir, sdaDir, irqEn, notActive⟩ := h.readRest hm
  exact ⟨hm, wrPos, dlWrite, dlInhibit, sclDir, sdaDir, irqEn, notActive, h.lockStatus, h.readGuard hm, h.accClear hm,
    h.positions.1, h.counters.1⟩

theorem writing (h : Inv s) (hm : s.mode = .write) : Writing s := by
  obtain ⟨rdPos, rdAcc, dlRead, active, lock⟩ := h.writeRest hm
  exact ⟨hm, rdPos, rdAcc, dlRead, active, lock⟩

theorem holding (h : Inv s) (hh : InHold s) : Holding s := by
  obtain ⟨irqEn, sclDir, sclOut, sdaDir, sdaOut, armed, dlWrite⟩ := h.hold hh
  exact ⟨h.writing hh.1, hh.2, irqEn, sclDir, sclOut, sdaDir, sdaOut, dlWrite, armed, h.counters.2.2⟩

theorem clocking (h : Inv s) (hm : s.mode = .write) (hp : s.wrPos ≠ 0#4) : Clocking s := by
  obtain ⟨irqEn, sclDir, armed, dlInhibit, sdaDir⟩ := h.clocked ⟨hm, hp⟩
  exact ⟨h.writing hm, hp, h.positions.2, irqEn, sclDir, sdaDir, dlInhibit, armed, h.counters.2.1⟩

/-- The three shapes leave no state of the invariant out. -/
theorem shapes (h : Inv s) : Reading s ∨ Holding s ∨ Clocking s := by
  cases hm : s.mode with
  | read => exact .inl (h.reading hm)
  | write =>
    by_cases hp : s.wrPos = 0#4
    · exact .inr (.inl (h.holding ⟨hm, hp⟩))
    · exact .inr (.inr (h.clocking hm hp))

/-- What the invariant does not speak of may change. -/
theorem of_unconstrained (h : Inv s) {prev : Level} {cb : Callback} {cbEnabled : Bool} {es : List Event} {c : Option HostCmd} {r : Bool}
    {os : List Output} {ds : List Bool} {n : Nat} :
    Inv { s with
      sclPrev := prev, cb := cb, cbEnabled := cbEnabled, events := es, portHost := c, portReset := r, outs := os
      allocDraws := ds, allocCnt := n } :=
  ⟨h.oneArmed, h.readRest, h.readGuard, h.writeRest, h.hold, h.clocked, h.positions, h.lockStatus, h.accClear, h.counters,
    h.resend, h.queue⟩

theorem emit (h : Inv s) (o : Output) : Inv (s.emit o) := h.of_unconstrained

theorem of_queue (h : Inv s) {q : List Byte} (hq : QueueBounded { s with queue := q }) : Inv { s with queue := q } :=
  ⟨h.oneArmed, h.readRest, h.readGuard, h.writeRest, h.hold, h.clocked, h.positions, h.lockStatus, h.accClear, h.counters,
    h.resend, hq⟩

theorem flush (h : Inv s) : Inv (flush s) := h.of_queue (q := []) fun _ _ => Nat.zero_le _

end Inv

/-! ### What a slot comes to: the deadline it cancels first, its abort or `Finish` cancels in any case -/

theorem readStartSlot_eq (d : Level) (s : State) :
    readStartSlot d s = if d then readReset (s.raise .invalidStartBit) else readEpilogue s := rfl

theorem readParitySlot_eq (d : Level) (s : State) :
    readParitySlot d s = if d = wireParity s.rdAcc then readEpilogue s else abortResend (s.raise .invalidParity) := rfl

theorem readStopSlot_eq (d : Level) (s : State) :
    readStopSlot d s = if d then finalize s else abortResend (s.raise .invalidStopBit) := rfl

theorem readTimeout_eq (s : State) : readTimeout s =
    if s.rdPos.toNat ≤ s.par.earlyAbortMaxPos then readReset (s.raise .timeout) else abortResend (s.raise .timeout) := rfl

theorem writeAckSlot_eq (d : Level) (s : State) :
    writeAckSlot d s = if d then finish .failure (s.raise .ackFailure) else finish .success s := rfl

theorem finish_cancel_raise (c : Completion) (k : ErrorKind) (s : State) :
    finish c ((s.setDeadline .write none).raise k) = finish c (s.raise k) := rfl

/-! ### The read side -/

namespace Reading

theorem raise (h : Reading s) (k : ErrorKind) : Reading (s.raise k) := { h with }

/-- An accepting read edge below Stop goes on to the next slot (R140). -/
theorem next_slot (h : Reading s) (hp : s.rdPos.toNat < 10) (acc : Byte) :
    Reading { s with rdAcc := acc, rdPos := s.rdPos + 1#4, dlRead := some s.par.tReadBit } :=
  have pos : s.rdPos + 1#4 ≠ 0#4 := by bv_omega
  { h with
    guard := by simp [pos]
    accClear := fun hz => absurd hz pos
    inFrame := by bv_omega
    counter := by simp }

theorem readReset (h : Reading s) : Reading (readReset s) := by
  rw [readReset_eq]
  exact { h with guard := by simp, accClear := fun _ => rfl, inFrame := by simp, counter := by simp }

/-- An admitted write starts the hold (R170). -/
theorem admitWrite (h : Reading s) (b : Byte) : Holding (admitWrite b s) := by
  rw [admitWrite_eq]
  exact
    { mode := rfl, rdPos := rfl, rdAcc := rfl, dlRead := rfl, active := rfl, lock := rfl, wrPos := rfl, irqEn := rfl
      sclDir := rfl, sclOut := rfl, sdaDir := rfl, sdaOut := rfl, dlWrite := h.dlWrite, armed := by simp, counter := by simp }

end Reading

theorem Bounded.admitWrite (hb : Bounded s) (b : Byte) : Bounded (admitWrite b s) := by
  rw [admitWrite_eq]
  exact ⟨hb.resend, hb.queue⟩

theorem inv_admitWrite (h : Reading s) (hb : Bounded s) (b : Byte) : Inv (admitWrite b s) := (h.admitWrite b).inv (hb.admitWrite b)

theorem inv_readReset (h : Reading s) (hb : Bounded s) : Inv (readReset s) := h.readReset.inv ⟨hb.resend, hb.queue⟩

/-- Each abort drops the frame, and counts a resend only where the bound leaves room for it (R156, R157). -/
theorem inv_abortResend (h : Reading s) (hb : Bounded s) : Inv (abortResend s) := by
  rw [abortResend_read h.mode]
  split
  case h_1 => exact inv_admitWrite h hb _
  case h_2 m hm =>
    split
    · have reading : Reading { s with resendCnt := s.resendCnt + 1 } := { h with }
      have counted : Bounded { s with resendCnt := s.resendCnt + 1 } :=
        ⟨⟨by simp [hm], by simp only [hm, Option.some.injEq]; omega⟩, hb.queue⟩
      exact inv_admitWrite reading counted _
    · exact inv_readReset h hb

/-- A byte is added only where the allocation succeeds, which a queue at its ceiling never lets happen (R237). -/
theorem alloc_below_cap (h : QueueBounded s) (ha : (alloc s).1 = true) : ∀ c, s.par.queueCap = some c → s.queue.length < c := by
  intro c hc
  have below : s.queue.length ≠ c := by
    rintro rfl
    simp [alloc_at_cap hc] at ha
  have := h c hc
  omega

theorem alloc_queue (s : State) : (alloc s).2.queue = s.queue := by
  obtain ⟨ds, n, h⟩ := alloc_frame s
  rw [h]

theorem alloc_par (s : State) : (alloc s).2.par = s.par := by
  obtain ⟨ds, n, h⟩ := alloc_frame s
  rw [h]

theorem queueAdd_queueBounded (b : Byte) (h : QueueBounded s) : QueueBounded (queueAdd b s) := by
  unfold queueAdd
  simp only
  split
  · intro c hc
    have room := alloc_below_cap h ‹_› c (by simpa [alloc_par] using hc)
    simpa [alloc_queue] using room
  · have emptied : QueueBounded (flush (alloc s).2) := fun _ _ => Nat.zero_le _
    split
    · intro c hc
      exact alloc_below_cap emptied ‹_› c (by simpa [alloc_par] using hc)
    · intro c _
      simp [alloc_queue, flush]

theorem deliver_queueBounded (b : Byte) (h : QueueBounded s) : QueueBounded (deliver b s) := by
  unfold deliver
  split
  · exact h
  · exact queueAdd_queueBounded b h

theorem inv_deliver (b : Byte) (h : Inv s) : Inv (deliver b s) := by
  obtain ⟨q, ds, n, os, hd⟩ := deliver_frame b s
  have hq := deliver_queueBounded b h.queue
  rw [hd] at hq ⊢
  exact (h.of_queue (q := q) hq).of_unconstrained

theorem inv_finalize (h : Reading s) (hb : Bounded s) : Inv (finalize s) := by
  rw [finalize_eq]
  refine inv_deliver _ (Reading.inv { h.readReset with } ⟨⟨fun hn => ?_, fun m hm => ?_⟩, hb.queue⟩)
  · exact (if_pos hn).trans (hb.resend.1 hn)
  · simp [show s.par.resendMax = some m from hm]

theorem inv_readStartSlot (d : Level) (h : Reading s) (hb : Bounded s) (hp : s.rdPos = 0#4) : Inv (readStartSlot d s) := by
  rw [readStartSlot_eq]
  split
  · exact inv_readReset (h.raise _) ⟨hb.resend, hb.queue⟩
  · exact (h.next_slot (by rw [hp]; decide) s.rdAcc).inv ⟨hb.resend, hb.queue⟩

theorem inv_readDataSlot (j : Nat) (d : Level) (h : Reading s) (hb : Bounded s) (hp : s.rdPos.toNat < 10) : Inv (readDataSlot j d s) :=
  (h.next_slot hp _).inv ⟨hb.resend, hb.queue⟩

theorem inv_readParitySlot (d : Level) (h : Reading s) (hb : Bounded s) (hp : s.rdPos = 9#4) : Inv (readParitySlot d s) := by
  rw [readParitySlot_eq]
  split
  · exact (h.next_slot (by rw [hp]; decide) s.rdAcc).inv ⟨hb.resend, hb.queue⟩
  · exact inv_abortResend (h.raise _) ⟨hb.resend, hb.queue⟩

theorem inv_readStopSlot (d : Level) (h : Reading s) (hb : Bounded s) : Inv (readStopSlot d s) := by
  rw [readStopSlot_eq]
  split
  · exact inv_finalize h hb
  · exact inv_abortResend (h.raise _) ⟨hb.resend, hb.queue⟩

theorem inv_readTimeout (h : Reading s) (hb : Bounded s) : Inv (readTimeout s) := by
  rw [readTimeout_eq]
  split
  · exact inv_readReset (h.raise _) ⟨hb.resend, hb.queue⟩
  · exact inv_abortResend (h.raise _) ⟨hb.resend, hb.queue⟩

/-! ### The write side -/

/-- The end of the hold hands the clock to the device (R176). -/
theorem inv_releaseClock (h : Holding s) (hb : Bounded s) : Inv (releaseClock s) := by
  rw [releaseClock_eq]
  refine Clocking.inv ?_ ⟨hb.resend, hb.queue⟩
  exact
    { h with
      wrPos := by simp, inFrame := by simp, irqEn := rfl, sclDir := rfl, sdaDir := by simp [h.sdaDir], dlInhibit := rfl
      armed := by simp, counter := by simp }

namespace Clocking

theorem raise (h : Clocking s) (k : ErrorKind) : Clocking (s.raise k) := { h with }

/-- A write edge below Ack goes on to the next slot, and the block drives SDA up to slot 10 (R177, R188). -/
theorem next_slot (h : Clocking s) (hp : s.wrPos.toNat < 11) (v : Level) (dir : Dir) (hd : dir = .output ↔ s.wrPos.toNat < 10) :
    Clocking { s with sdaOut := v, sdaDir := dir, wrPos := s.wrPos + 1#4, dlWrite := some s.par.tWriteBit } :=
  have nonzero : 0 < s.wrPos.toNat := by have := h.wrPos; bv_omega
  have pos : (s.wrPos + 1#4).toNat = s.wrPos.toNat + 1 := by bv_omega
  have later : s.wrPos + 1#4 ≠ 1#4 := by bv_omega
  { h with
    wrPos := by bv_omega
    inFrame := by rw [pos]; omega
    sdaDir := by rw [pos]; exact hd
    armed := by simp
    counter := by simp [later] }

/-- `Finish` leaves an idle bus (R190). -/
theorem finish (h : Clocking s) (c : Completion) : Reading (finish c s) := by
  rw [finish_eq]
  exact
    { mode := rfl, wrPos := rfl, dlWrite := rfl, dlInhibit := h.dlInhibit, sclDir := rfl, sdaDir := rfl, irqEn := h.irqEn
      notActive := by cases c <;> simp [completionStatus]
      lockStatus := by cases c <;> simp [LockMeansFinished, completionStatus]
      guard := by simp [h.dlRead], accClear := fun _ => h.rdAcc, inFrame := by simp, counter := by simp [h.dlRead] }

end Clocking

theorem inv_finish (c : Completion) (h : Clocking s) (hb : Bounded s) : Inv (finish c s) :=
  (h.finish c).inv ⟨hb.resend, hb.queue⟩

theorem inv_writeDriveSlot (v : Level) (h : Clocking s) (hb : Bounded s) (hp : s.wrPos.toNat < 10) : Inv (writeDriveSlot v s) := by
  rw [writeDriveSlot_eq]
  exact (h.next_slot (by omega) v s.sdaDir (by rw [h.sdaDir]; omega)).inv ⟨hb.resend, hb.queue⟩

theorem inv_writeStopSlot (h : Clocking s) (hb : Bounded s) (hp : s.wrPos = 10#4) : Inv (writeStopSlot s) := by
  rw [writeStopSlot_eq]
  exact (h.next_slot (by rw [hp]; decide) true .input (by rw [hp]; decide)).inv ⟨hb.resend, hb.queue⟩

theorem inv_writeAckSlot (d : Level) (h : Clocking s) (hb : Bounded s) : Inv (writeAckSlot d s) := by
  rw [writeAckSlot_eq]
  split
  · exact inv_finish _ (h.raise _) ⟨hb.resend, hb.queue⟩
  · exact inv_finish _ h hb

/-- `WR.START` cancels a deadline that the hold does not arm (R178). -/
theorem inv_cancelWrite (h : Holding s) (hb : Bounded s) : Inv (s.cancel .write) :=
  Holding.inv { h with dlWrite := rfl } ⟨hb.resend, hb.queue⟩

/-! ### The host operations -/

theorem inv_initiateWrite (b : Byte) (h : Inv s) : Inv (initiateWrite b s).1 := by
  cases hm : s.mode with
  | read =>
    rw [initiateWrite_read b hm]
    exact inv_admitWrite (h.reading hm) h.bounded b
  | write =>
    rw [initiateWrite_write b hm]
    exact h.emit _

/-- A collected write leaves neither the lock nor a status; in Write mode there is none to collect (R230). -/
theorem inv_execHCollect (h : Inv s) (hx : execHCollect s = .next t) : Inv t := by
  unfold execHCollect at hx
  split at hx <;> cases hx
  · rename_i hl
    have hm : s.mode = .read := by
      cases hm : s.mode with
      | read => rfl
      | write => simp [(h.writing hm).lock] at hl
    have collected : Reading { s with lock := false, wrStatus := .inactive } :=
      { h.reading hm with notActive := by simp, lockStatus := by simp [LockMeansFinished] }
    exact (collected.inv ⟨h.resend, h.queue⟩).emit _
  · exact h.emit _

theorem inv_execHConfigure {p : Bool} (h : Inv s) (hx : execHConfigure p s = .next t) : Inv t := by
  unfold execHConfigure at hx
  split at hx <;> cases hx
  · exact h.of_unconstrained
  · exact (h.emit _).emit _

theorem inv_execHRead (h : Inv s) (hx : execHRead s = .next t) : Inv t := by
  unfold execHRead at hx
  split at hx <;> cases hx
  · exact h.emit _
  · rename_i b rest hq
    refine (h.of_queue (q := rest) fun c hc => ?_).emit _
    have := h.queue c hc
    simp only [hq, List.length_cons] at this
    simp only
    omega

/-! ### The operations of one event -/

theorem inv_of_atSlot_read {k : Slot} {f : State → State} (h : Inv s) (hx : atSlot .read k f s = .next t)
    (hf : Reading s → Bounded s → s.rdPos = k → Inv (f s)) : Inv t := by
  obtain ⟨⟨hm, hk⟩, rfl⟩ := atSlot_eq_next.mp hx
  exact hf (h.reading hm) h.bounded (s.pc_of_read hm ▸ hk)

theorem inv_of_atSlot_hold {f : State → State} (h : Inv s) (hx : atSlot .write 0#4 f s = .next t)
    (hf : Holding s → Bounded s → Inv (f s)) : Inv t := by
  obtain ⟨⟨hm, hk⟩, rfl⟩ := atSlot_eq_next.mp hx
  exact hf (h.holding ⟨hm, s.pc_of_write hm ▸ hk⟩) h.bounded

theorem inv_of_atSlot_clocked {k : Slot} {f : State → State} (hk0 : k ≠ 0#4) (h : Inv s) (hx : atSlot .write k f s = .next t)
    (hf : Clocking s → Bounded s → s.wrPos = k → Inv (f s)) : Inv t := by
  obtain ⟨⟨hm, hk⟩, rfl⟩ := atSlot_eq_next.mp hx
  rw [s.pc_of_write hm] at hk
  exact hf (h.clocking hm (hk ▸ hk0)) h.bounded hk

/-- In the invariant an armed `dl_write` means a clocked write (R43 to R48). -/
theorem Inv.clocking_of_dlWrite (h : Inv s) (hw : s.dlWrite ≠ none) : Clocking s := by
  obtain hr | hh | hc := h.shapes
  · exact absurd hr.dlWrite hw
  · exact absurd hh.dlWrite hw
  · exact hc

theorem inv_exec_of_singleEvent {i : Instr} (hi : singleEvent i = true) (h : Inv s) (hx : exec i s = .next t) : Inv t := by
  cases i with
  | rdStart d => exact inv_of_atSlot_read h hx (inv_readStartSlot d)
  | rdData1 d | rdData2 d | rdData3 d | rdData4 d | rdData5 d | rdData6 d | rdData7 d | rdData8 d =>
    exact inv_of_atSlot_read h hx fun hr hb hp => inv_readDataSlot _ d hr hb (by rw [hp]; decide)
  | rdParity d => exact inv_of_atSlot_read h hx (inv_readParitySlot d)
  | rdStop d => exact inv_of_atSlot_read h hx fun hr hb _ => inv_readStopSlot d hr hb
  | wrStart d => exact inv_of_atSlot_hold (f := fun s => s.cancel .write) h hx inv_cancelWrite
  | wrData1 d | wrData2 d | wrData3 d | wrData4 d | wrData5 d | wrData6 d | wrData7 d | wrData8 d | wrParity d =>
    exact inv_of_atSlot_clocked (by decide) h hx fun hc hb hp => inv_writeDriveSlot _ hc hb (by rw [hp]; decide)
  | wrStop d => exact inv_of_atSlot_clocked (by decide) h hx inv_writeStopSlot
  | wrAck d => exact inv_of_atSlot_clocked (by decide) h hx fun hc hb _ => inv_writeAckSlot d hc hb
  | toRead =>
    obtain ⟨-, hm, rfl⟩ := execToRead_eq_next.mp hx
    exact inv_readTimeout (h.reading hm) h.bounded
  | toWrite =>
    obtain ⟨hw, -, rfl⟩ := execToWrite_eq_next.mp hx
    rw [finish_cancel_raise]
    exact inv_finish _ ((h.clocking_of_dlWrite hw).raise _) ⟨h.resend, h.queue⟩
  | toInhibit =>
    obtain ⟨-, hh, rfl⟩ := execToInhibit_eq_next.mp hx
    exact inv_releaseClock (h.holding hh) h.bounded
  | hWrite b =>
    cases hx
    exact (inv_initiateWrite b h).emit _
  | hCollect => exact inv_execHCollect h hx
  | hConfigure p => exact inv_execHConfigure h hx
  | hEnableCb | hDisableCb =>
    cases hx
    exact h.flush.of_unconstrained
  | hRead => exact inv_execHRead h hx
  | reset | tick c d => cases hi

/-! ### `RESET`, the phases of a tick, the step -/

theorem inv_resetRegisters (s : State) : Inv (resetRegisters s) :=
  Reading.inv
    { mode := rfl, wrPos := rfl, dlWrite := rfl, dlInhibit := rfl, sclDir := rfl, sdaDir := rfl, irqEn := rfl
      notActive := by simp [resetRegisters, State.reset]
      lockStatus := by simp [LockMeansFinished, resetRegisters, State.reset]
      guard := by simp [resetRegisters, State.reset]
      accClear := fun _ => rfl, inFrame := Nat.zero_le _, counter := by simp [resetRegisters, State.reset] }
    ⟨⟨fun _ => rfl, fun _ _ => Nat.zero_le _⟩, fun _ _ => Nat.zero_le _⟩

/-- Counting disarms no deadline and arms none. -/
theorem countDown_eq_none_iff (o : Option Nat) : countDown o = none ↔ o = none := by simp [countDown_eq]

/-- Counting keeps a bound. -/
theorem countDown_le {o : Option Nat} {b : Nat} (h : ∀ n, o = some n → n ≤ b) : ∀ n, countDown o = some n → n ≤ b := by
  intro n hn
  simp only [countDown_eq, Option.map_eq_some_iff] at hn
  obtain ⟨m, hm, rfl⟩ := hn
  have := h m hm
  omega

theorem inv_countPhase (h : Inv s) : Inv (countPhase s) := by
  have hb : Bounded (countPhase s) := ⟨h.resend, h.queue⟩
  obtain hr | hh | hc := h.shapes
  · exact Reading.inv
      { hr with
        dlWrite := (countDown_eq_none_iff _).mpr hr.dlWrite
        dlInhibit := (countDown_eq_none_iff _).mpr hr.dlInhibit
        guard := (countDown_eq_none_iff _).not.trans hr.guard
        counter := countDown_le hr.counter } hb
  · exact Holding.inv
      { hh with
        dlRead := (countDown_eq_none_iff _).mpr hh.dlRead
        dlWrite := (countDown_eq_none_iff _).mpr hh.dlWrite
        armed := (countDown_eq_none_iff _).not.mpr hh.armed
        counter := countDown_le hh.counter } hb
  · exact Clocking.inv
      { hc with
        dlRead := (countDown_eq_none_iff _).mpr hc.dlRead
        dlInhibit := (countDown_eq_none_iff _).mpr hc.dlInhibit
        armed := (countDown_eq_none_iff _).not.mpr hc.armed
        counter := countDown_le hc.counter } hb

theorem inv_dispatchEdge {d : Level} (h : Inv s) (hx : dispatchEdge d s = .next t) : Inv t := by
  rw [dispatchEdge_eq] at hx
  cases he : edgeInstr s.mode s.pc d with
  | ok i =>
    rw [he] at hx
    exact inv_exec_of_singleEvent (singleEvent_of_edgeInstr he) h hx
  | error r => rw [he] at hx; cases hx

theorem inv_edgePhase {c d : Level} (h : Inv s) (hx : edgePhase c d s = .next t) : Inv t := by
  cases he : fallingEdge s.sclPrev (s.lineRead .scl c) && s.irqEn with
  | false =>
    rw [edgePhase_quiet c d he] at hx
    cases hx
    exact h.of_unconstrained
  | true =>
    rw [edgePhase_edge c d he] at hx
    exact inv_dispatchEdge h.of_unconstrained hx

theorem inv_deadlinePhase (h : Inv s) (hx : deadlinePhase s = .next t) : Inv t := by
  obtain ⟨-, hx⟩ | ⟨-, -, hx⟩ | ⟨-, -, -, hx⟩ | ⟨-, -, -, rfl⟩ := deadlinePhase_cases hx
  · exact inv_exec_of_singleEvent (i := .toRead) rfl h hx
  · exact inv_exec_of_singleEvent (i := .toWrite) rfl h hx
  · exact inv_exec_of_singleEvent (i := .toInhibit) rfl h hx
  · exact h

theorem inv_hostPhase (h : Inv s) (hx : hostPhase s = .next t) : Inv t := by
  obtain ⟨-, rfl⟩ | ⟨c, -, hx⟩ := hostPhase_cases hx
  · exact h
  · rw [runHost_eq_exec] at hx
    exact inv_exec_of_singleEvent (singleEvent_toInstr c) h.of_unconstrained hx

theorem inv_execTick {c d : Level} (h : Inv s) (hx : execTick c d s = .next t) : Inv t := by
  obtain ⟨-, rfl⟩ | ⟨-, u, v, hu, hv, ht⟩ := execTick_cases hx
  · exact inv_resetRegisters _
  · have edge_done : Inv u := inv_edgePhase (inv_countPhase h) hu
    exact inv_hostPhase (inv_deadlinePhase edge_done hv) ht

theorem inv_exec {i : Instr} (h : Inv s) (hx : exec i s = .next t) : Inv t := by
  cases hi : singleEvent i with
  | true => exact inv_exec_of_singleEvent hi h hx
  | false =>
    cases i with
    | tick c d => exact inv_execTick h hx
    | reset =>
      cases hx
      exact inv_resetRegisters s
    | _ => cases hi

/-- Settles O45: every operation takes each shape of the invariant to one of the three, and a step is one operation. -/
theorem everyStepKeepsTheInvariant : Obligations.EveryStepKeepsTheInvariant := by
  intro s t h hx
  cases he : s.events with
  | nil =>
    simp only [step, he] at hx
    cases hx
    exact h
  | cons e rest =>
    rw [step_cons he] at hx
    cases hd : decodeWord (formWord e s) with
    | ok i =>
      rw [hd] at hx
      exact inv_exec h.of_unconstrained hx
    | error r => rw [hd] at hx; cases hx

/-! ### The interrupt enable (R49) -/

theorem Inv.irqEn_eq_false_iff (h : Inv s) : s.irqEn = false ↔ InHold s := by
  obtain hr | hh | hc := h.shapes
  · simp [InHold, hr.irqEn, hr.mode]
  · simp [InHold, hh.irqEn, hh.mode, hh.wrPos]
  · simp [InHold, hc.irqEn, hc.wrPos]

/-- `WR.START` is the operation of the hold's slot alone (30_encoding.md R100). -/
theorem edgeInstr_eq_wrStart {m : Mode} {k : Slot} {d d' : Level} (h : edgeInstr m k d = .ok (.wrStart d')) : m = .write ∧ k = 0#4 := by
  cases m with
  | read => simp only [edgeInstr] at h; split at h <;> cases h
  | write =>
    simp only [edgeInstr] at h
    split at h <;> cases h
    exact ⟨rfl, BitVec.eq_of_toNat_eq ‹_›⟩

/-- Settles O47: an enabled edge means `irq_en = 1`, so it is not seen in the hold, where alone `WR.START` is selected. -/
theorem interruptOffExactlyInTheHold : Obligations.InterruptOffExactlyInTheHold := by
  intro s h
  refine ⟨h.irqEn_eq_false_iff, ?_⟩
  rintro c d d' ⟨-, -, enabled⟩ selected
  obtain ⟨hm, hk⟩ := edgeInstr_eq_wrStart selected
  have off : s.irqEn = false := h.irqEn_eq_false_iff.mpr ⟨hm, s.pc_of_write hm ▸ hk⟩
  simp [enabled] at off

/-! ### The writers of `mode` (R28) -/

/-- What an operation can do to `mode`: keep it; start a write from Read mode, with or without an answer to the host; finish a write from
Write mode. -/
inductive ModeStep (s t : State) : Prop where
  | kept (mode : t.mode = s.mode)
  | started (b : Byte) (u : State) (par : u.par = s.par) (mode : s.mode = .read) (next : t = admitWrite b u)
  | answered (b : Byte) (o : Output) (mode : s.mode = .read) (next : t = (admitWrite b s).emit o)
  | finished (c : Completion) (u : State) (mode : s.mode = .write) (next : t = finish c u)

theorem abortResend_modeStep {u : State} (hp : u.par = s.par) (hu : u.mode = s.mode) (hm : s.mode = .read) :
    ModeStep s (abortResend u) := by
  rw [abortResend_read (hu.trans hm)]
  split
  · exact .started _ u hp hm rfl
  · split
    · exact .started _ { u with resendCnt := u.resendCnt + 1 } hp hm rfl
    · exact .kept hu

theorem deliver_mode (b : Byte) (s : State) : (deliver b s).mode = s.mode := by
  obtain ⟨q, ds, n, os, h⟩ := deliver_frame b s
  rw [h]

theorem readParitySlot_modeStep (d : Level) (hm : s.mode = .read) : ModeStep s (readParitySlot d s) := by
  rw [readParitySlot_eq]
  split
  · exact .kept rfl
  · exact abortResend_modeStep rfl rfl hm

theorem readStopSlot_modeStep (d : Level) (hm : s.mode = .read) : ModeStep s (readStopSlot d s) := by
  rw [readStopSlot_eq]
  split
  · rw [finalize_eq]
    exact .kept (deliver_mode _ _)
  · exact abortResend_modeStep rfl rfl hm

theorem readTimeout_modeStep (hm : s.mode = .read) : ModeStep s (readTimeout s) := by
  rw [readTimeout_eq]
  split
  · exact .kept rfl
  · exact abortResend_modeStep rfl rfl hm

theorem writeAckSlot_modeStep (d : Level) (hm : s.mode = .write) : ModeStep s (writeAckSlot d s) := by
  rw [writeAckSlot_eq]
  split
  · exact .finished _ _ hm rfl
  · exact .finished _ _ hm rfl

theorem execHWrite_modeStep {b : Byte} (hx : execHWrite b s = .next t) : ModeStep s t := by
  cases hx
  cases hm : s.mode with
  | read =>
    rw [initiateWrite_read b hm]
    exact .answered b _ hm rfl
  | write =>
    rw [initiateWrite_write b hm]
    exact .kept rfl

theorem readStartSlot_mode (d : Level) (s : State) : (readStartSlot d s).mode = s.mode := by
  rw [readStartSlot_eq]
  split <;> rfl

theorem releaseClock_mode (s : State) : (releaseClock s).mode = s.mode := by rw [releaseClock_eq]

theorem execHCollect_mode (hx : execHCollect s = .next t) : t.mode = s.mode := by
  unfold execHCollect at hx
  split at hx <;> cases hx <;> rfl

theorem execHConfigure_mode {p : Bool} (hx : execHConfigure p s = .next t) : t.mode = s.mode := by
  unfold execHConfigure at hx
  split at hx <;> cases hx <;> rfl

theorem execHRead_mode (hx : execHRead s = .next t) : t.mode = s.mode := by
  unfold execHRead at hx
  split at hx <;> cases hx <;> rfl

theorem ModeStep.of_atSlot {m : Mode} {k : Slot} {f : State → State} (hx : atSlot m k f s = .next t)
    (hf : s.mode = m → ModeStep s (f s)) : ModeStep s t := by
  obtain ⟨⟨hm, -⟩, rfl⟩ := atSlot_eq_next.mp hx
  exact hf hm

theorem exec_modeStep {i : Instr} (hi : singleEvent i = true) (hx : exec i s = .next t) : ModeStep s t := by
  cases i with
  | rdStart d => exact .of_atSlot hx fun _ => .kept (readStartSlot_mode d s)
  | rdData1 d | rdData2 d | rdData3 d | rdData4 d | rdData5 d | rdData6 d | rdData7 d | rdData8 d =>
    exact .of_atSlot hx fun _ => .kept rfl
  | rdParity d => exact .of_atSlot hx (readParitySlot_modeStep d)
  | rdStop d => exact .of_atSlot hx (readStopSlot_modeStep d)
  | wrStart d => exact .of_atSlot (f := fun s => s.cancel .write) hx fun _ => .kept rfl
  | wrData1 d | wrData2 d | wrData3 d | wrData4 d | wrData5 d | wrData6 d | wrData7 d | wrData8 d | wrParity d | wrStop d =>
    exact .of_atSlot hx fun _ => .kept rfl
  | wrAck d => exact .of_atSlot hx (writeAckSlot_modeStep d)
  | toRead =>
    obtain ⟨-, hm, rfl⟩ := execToRead_eq_next.mp hx
    exact readTimeout_modeStep hm
  | toWrite =>
    obtain ⟨-, hm, rfl⟩ := execToWrite_eq_next.mp hx
    exact .finished _ _ hm rfl
  | toInhibit =>
    obtain ⟨-, -, rfl⟩ := execToInhibit_eq_next.mp hx
    exact .kept (releaseClock_mode s)
  | hWrite b => exact execHWrite_modeStep hx
  | hCollect => exact .kept (execHCollect_mode hx)
  | hConfigure p => exact .kept (execHConfigure_mode hx)
  | hEnableCb | hDisableCb =>
    cases hx
    exact .kept rfl
  | hRead => exact .kept (execHRead_mode hx)
  | reset | tick c d => cases hi

/-- Settles O49: `mode` changes only by an admitted write or by `Finish`, whose whole effects are known. -/
theorem modeChangesOnlyByWriteAndFinish : Obligations.ModeChangesOnlyByWriteAndFinish := by
  intro i s t hi hx
  cases exec_modeStep hi hx with
  | kept same =>
    constructor
    · intro hs ht
      simp [same, hs] at ht
    · intro hs ht
      simp [same, hs] at ht
  | started b u par mode next => simp [next, admitWrite_eq, par, mode]
  | answered b o mode next => simp [next, admitWrite_eq, mode]
  | finished c u mode next =>
    refine ⟨by simp [mode], fun _ _ => ⟨c, ?_⟩⟩
    simp [next, finish_eq]

/-! ### The reset values (R42) -/

/-- Settles O9: `RESET` writes exactly the reset column, which `State.reset` already holds. -/
theorem resetGivesTheResetValues : Obligations.ResetGivesTheResetValues :=
  ⟨fun _ => rfl, rfl⟩

end Sys2Proof.Machine
end

section
/-! SUPPORT. Proofs of the statements of 20_memory.md: the line space and the resolved level of a line (R60 to R64), and the transitions
of `lock` (R75). -/

namespace Sys2Proof.Machine

/-! ### The line space (R60 to R64) -/

theorem driveLevel_eq (dir : Dir) (out : Level) : driveLevel dir out = if dir = .output then out else true := by cases dir <;> rfl

theorem lineRead_scl_eq (s : State) (c : Level) : s.lineRead .scl c = sclLevel s c :=
  congrArg (c && ·) (driveLevel_eq s.sclDir s.sclOut)

theorem lineRead_sda_eq (s : State) (d : Level) : s.lineRead .sda d = sdaLevel s d :=
  congrArg (d && ·) (driveLevel_eq s.sdaDir s.sdaOut)

theorem memRead_scl (s : State) (dev : Line → Level) : s.memRead 0 dev = some (s.lineRead .scl (dev .scl)) := rfl

theorem memRead_sda (s : State) (dev : Line → Level) : s.memRead 1 dev = some (s.lineRead .sda (dev .sda)) := rfl

theorem memRead_unmapped {addr : Nat} (s : State) (dev : Line → Level) (h : 2 ≤ addr) : s.memRead addr dev = none := by
  match addr, h with
  | _ + 2, _ => rfl

/-- Settles O55: an address names its line, whose drive is the latch or the released level by direction. -/
theorem lineResolution : Obligations.LineResolution := by
  intro s dev
  refine ⟨?_, ?_, fun _ => memRead_unmapped s dev⟩
  · rw [memRead_scl, lineRead_scl_eq]
  · rw [memRead_sda, lineRead_sda_eq]

/-! ### The lock (R75) -/

variable {s t : State}

/-- What an operation other than `H.COLLECT` can do to `lock`: keep it, take it with the start of a write, or give it with the end of one. -/
inductive LockStep (s t : State) : Prop where
  | kept (lock : t.lock = s.lock)
  | taken (before : s.mode = .read) (after : t.mode = .write) (lock : t.lock = false)
  | given (before : s.mode = .write) (after : t.mode = .read) (lock : t.lock = true)

/-- An admitted write takes the lock, whatever it was. -/
theorem admitWrite_lockStep (b : Byte) {u : State} (hm : s.mode = .read) : LockStep s (admitWrite b u) := by
  rw [admitWrite_eq]
  exact .taken hm rfl rfl

/-- `Finish` gives the lock, whatever it was. -/
theorem finish_lockStep (c : Completion) {u : State} (hm : s.mode = .write) : LockStep s (finish c u) := by
  rw [finish_eq]
  exact .given hm rfl rfl

theorem abortResend_lockStep {u : State} (hu : u.mode = s.mode) (hl : u.lock = s.lock) (hm : s.mode = .read) :
    LockStep s (abortResend u) := by
  rw [abortResend_read (hu.trans hm)]
  split
  · exact admitWrite_lockStep _ hm
  · split
    · exact admitWrite_lockStep _ hm
    · exact .kept hl

theorem deliver_lock (b : Byte) (s : State) : (deliver b s).lock = s.lock := by
  obtain ⟨q, ds, n, os, h⟩ := deliver_frame b s
  rw [h]

theorem finalize_lock (s : State) : (finalize s).lock = s.lock := by
  rw [finalize_eq]
  exact deliver_lock _ _

theorem readStartSlot_lock (d : Level) (s : State) : (readStartSlot d s).lock = s.lock := by
  rw [readStartSlot_eq]
  split <;> rfl

theorem readParitySlot_lockStep (d : Level) (hm : s.mode = .read) : LockStep s (readParitySlot d s) := by
  rw [readParitySlot_eq]
  split
  · exact .kept rfl
  · exact abortResend_lockStep rfl rfl hm

theorem readStopSlot_lockStep (d : Level) (hm : s.mode = .read) : LockStep s (readStopSlot d s) := by
  rw [readStopSlot_eq]
  split
  · exact .kept (finalize_lock s)
  · exact abortResend_lockStep rfl rfl hm

theorem readTimeout_lockStep (hm : s.mode = .read) : LockStep s (readTimeout s) := by
  rw [readTimeout_eq]
  split
  · exact .kept rfl
  · exact abortResend_lockStep rfl rfl hm

theorem writeAckSlot_lockStep (d : Level) (hm : s.mode = .write) : LockStep s (writeAckSlot d s) := by
  rw [writeAckSlot_eq]
  split
  · exact finish_lockStep _ hm
  · exact finish_lockStep _ hm

theorem LockStep.emit (h : LockStep s t) (o : Output) : LockStep s (t.emit o) := by
  cases h with
  | kept lock => exact .kept lock
  | taken before after lock => exact .taken before after lock
  | given before after lock => exact .given before after lock

theorem initiateWrite_lockStep (b : Byte) (s : State) : LockStep s (initiateWrite b s).1 := by
  cases hm : s.mode with
  | read =>
    rw [initiateWrite_read b hm]
    exact admitWrite_lockStep b hm
  | write =>
    rw [initiateWrite_write b hm]
    exact .kept rfl

theorem execHConfigure_lock {p : Bool} (hx : execHConfigure p s = .next t) : t.lock = s.lock := by
  unfold execHConfigure at hx
  split at hx <;> cases hx <;> rfl

theorem execHRead_lock (hx : execHRead s = .next t) : t.lock = s.lock := by
  unfold execHRead at hx
  split at hx <;> cases hx <;> rfl

/-- After `H.COLLECT` the lock is taken: by it, or before it where it blocks (44_host_boundary.md R230). -/
theorem execHCollect_lock (hx : execHCollect s = .next t) : t.lock = false := by
  unfold execHCollect at hx
  split at hx <;> cases hx
  case isTrue => rfl
  case isFalse blocked => simpa using blocked

theorem LockStep.of_atSlot {m : Mode} {k : Slot} {f : State → State} (hx : atSlot m k f s = .next t)
    (hf : s.mode = m → LockStep s (f s)) : LockStep s t := by
  obtain ⟨⟨hm, -⟩, rfl⟩ := atSlot_eq_next.mp hx
  exact hf hm

theorem exec_lockStep {i : Instr} (hi : singleEvent i = true) (hc : i ≠ .hCollect) (hx : exec i s = .next t) : LockStep s t := by
  cases i with
  | rdStart d => exact .of_atSlot hx fun _ => .kept (readStartSlot_lock d s)
  | rdData1 d | rdData2 d | rdData3 d | rdData4 d | rdData5 d | rdData6 d | rdData7 d | rdData8 d =>
    exact .of_atSlot hx fun _ => .kept rfl
  | rdParity d => exact .of_atSlot hx (readParitySlot_lockStep d)
  | rdStop d => exact .of_atSlot hx (readStopSlot_lockStep d)
  | wrStart d => exact .of_atSlot (f := fun s => s.cancel .write) hx fun _ => .kept rfl
  | wrData1 d | wrData2 d | wrData3 d | wrData4 d | wrData5 d | wrData6 d | wrData7 d | wrData8 d | wrParity d | wrStop d =>
    exact .of_atSlot hx fun _ => .kept rfl
  | wrAck d => exact .of_atSlot hx (writeAckSlot_lockStep d)
  | toRead =>
    obtain ⟨-, hm, rfl⟩ := execToRead_eq_next.mp hx
    exact readTimeout_lockStep hm
  | toWrite =>
    obtain ⟨-, hm, rfl⟩ := execToWrite_eq_next.mp hx
    exact finish_lockStep _ hm
  | toInhibit =>
    obtain ⟨-, -, rfl⟩ := execToInhibit_eq_next.mp hx
    exact .kept rfl
  | hWrite b =>
    cases hx
    exact (initiateWrite_lockStep b s).emit _
  | hCollect => exact absurd rfl hc
  | hConfigure p => exact .kept (execHConfigure_lock hx)
  | hEnableCb | hDisableCb =>
    cases hx
    exact .kept rfl
  | hRead => exact .kept (execHRead_lock hx)
  | reset | tick c d => cases hi

/-- Settles O50: `H.COLLECT` never gives the lock, and every other operation that changes it starts or finishes a write. -/
theorem lockTransitions : Obligations.LockTransitions := by
  intro i s t hi hx
  by_cases hc : i = .hCollect
  · subst hc
    exact ⟨fun _ ht => by simp [execHCollect_lock hx] at ht, fun _ _ => .inl rfl⟩
  · cases exec_lockStep hi hc hx with
    | kept lock => exact ⟨fun hs ht => by simp [lock, hs] at ht, fun hs ht => by simp [lock, hs] at ht⟩
    | taken before after lock => exact ⟨fun _ ht => by simp [lock] at ht, fun _ _ => .inr ⟨before, after⟩⟩
    | given before after lock => exact ⟨fun _ _ => ⟨before, after⟩, fun _ ht => by simp [lock] at ht⟩

end Sys2Proof.Machine
end

section
/-! SUPPORT. Proofs of the statements of 30_encoding.md: the opcode table against the decoder (R98 to R100), the reserved words (R101), the
operation a step runs (R96), and frame words (R93, R105). -/

namespace Sys2Proof

/-! ### A word under the masks of the table (R96, R100) -/

theorem EventWord.modeBit_mode (w : EventWord) : modeBit (mode w) = w.getLsbD 12 := by
  rw [mode]
  cases w.getLsbD 12 <;> rfl

/-- The mask of an EDGE row keeps the fields above the operand. -/
theorem EventWord.and_edgeMask (w : EventWord) : w &&& 0x1FF00#17 = make (kind w) (mode w) (slot w) 0#8 := by
  apply BitVec.eq_of_getLsbD_eq
  intro i hi
  interval_cases i <;> simp [make, kind, slot, modeBit_mode]

/-- The mask of every other row keeps `kind` alone. -/
theorem EventWord.and_kindMask (w : EventWord) : w &&& 0x1E000#17 = make (kind w) .read 0#4 0#8 := by
  apply BitVec.eq_of_getLsbD_eq
  intro i hi
  interval_cases i <;> simp [make, kind, modeBit]

theorem edgeRow_covers {r : Row} (hr : r ∈ edgeRows) (w : EventWord) :
    r.covers w = (EventWord.make (EventWord.kind w) (EventWord.mode w) (EventWord.slot w) 0#8 == r.value) := by
  have mask : ∀ r ∈ edgeRows, r.mask = 0x1FF00#17 := by decide
  rw [Row.covers, mask r hr, EventWord.and_edgeMask]

theorem kindRow_covers {r : Row} (hr : r ∈ kindRows) (w : EventWord) :
    r.covers w = (EventWord.make (EventWord.kind w) .read 0#4 0#8 == r.value) := by
  have mask : ∀ r ∈ kindRows, r.mask = 0x1E000#17 := by decide
  rw [Row.covers, mask r hr, EventWord.and_kindMask]

/-! ### The decoder by `kind` and slot -/

/-- A kind or a slot is one of sixteen numerals, on which the decoder and the table compute. -/
theorem exists_lt_eq_ofNat (k : BitVec 4) : ∃ n, n < 16 ∧ k = BitVec.ofNat 4 n := ⟨k.toNat, k.isLt, BitVec.eq_of_toNat_eq (by simp)⟩

theorem decodeWord_of_edge {w : EventWord} (hk : EventWord.kind w = 0#4) :
    decodeWord w = edgeInstr (EventWord.mode w) (EventWord.slot w) ((EventWord.operand w).getLsbD 0) := by
  simp [decodeWord, hk]

/-! ### The rows that cover a word (R100) -/

/-- The names of the rows of `rows` that cover `w`. -/
def coveringNames (rows : List Row) (w : EventWord) : List String := (rows.filter fun r => r.covers w).map fun r => r.mnemonic

/-- The names the decoder's answer calls for: the operation's own, or none. -/
def decodedNames : Except Reject Instr → List String
  | .ok i => [i.mnemonic]
  | .error _ => []

theorem coveringNames_opcodeTable (w : EventWord) :
    coveringNames opcodeTable w = coveringNames edgeRows w ++ coveringNames kindRows w := by
  simp [coveringNames, opcodeTable]

theorem coveringNames_edgeRows_of_edge {w : EventWord} (hk : EventWord.kind w = 0#4) (d : Level) :
    coveringNames edgeRows w = decodedNames (edgeInstr (EventWord.mode w) (EventWord.slot w) d) := by
  obtain ⟨p, hp, slot⟩ := exists_lt_eq_ofNat (EventWord.slot w)
  rw [coveringNames, List.filter_congr fun r hr => edgeRow_covers hr w, hk, slot]
  cases EventWord.mode w with
  | read => interval_cases p <;> rfl
  | write => interval_cases p <;> rfl

theorem coveringNames_edgeRows_of_not_edge {w : EventWord} (hk : EventWord.kind w ≠ 0#4) : coveringNames edgeRows w = [] := by
  have edge : ∀ r ∈ edgeRows, EventWord.kind r.value = 0#4 := by decide
  rw [coveringNames, List.map_eq_nil_iff, List.filter_eq_nil_iff]
  intro r hr covered
  rw [edgeRow_covers hr, beq_iff_eq] at covered
  exact hk (by rw [← edge r hr, ← covered, EventWord.kind_make])

theorem coveringNames_kindRows_of_edge {w : EventWord} (hk : EventWord.kind w = 0#4) : coveringNames kindRows w = [] := by
  rw [coveringNames, List.filter_congr fun r hr => kindRow_covers hr w, hk]
  rfl

theorem coveringNames_kindRows_of_not_edge {w : EventWord} (hk : EventWord.kind w ≠ 0#4) :
    coveringNames kindRows w = decodedNames (decodeWord w) := by
  obtain ⟨k, lt, kind⟩ := exists_lt_eq_ofNat (EventWord.kind w)
  rw [coveringNames, List.filter_congr fun r hr => kindRow_covers hr w, decodeWord, kind]
  interval_cases k
  · exact absurd kind hk
  all_goals rfl

theorem coveringNames_eq_decodedNames (w : EventWord) : coveringNames opcodeTable w = decodedNames (decodeWord w) := by
  rw [coveringNames_opcodeTable]
  by_cases hk : EventWord.kind w = 0#4
  · rw [coveringNames_kindRows_of_edge hk, List.append_nil, decodeWord_of_edge hk, coveringNames_edgeRows_of_edge hk]
  · rw [coveringNames_edgeRows_of_not_edge hk, List.nil_append, coveringNames_kindRows_of_not_edge hk]

/-- Settles O3: an EDGE word is covered by the EDGE row of its mode and slot alone, any other word by the row of its kind alone. -/
theorem decoderFollowsTheTable : Obligations.DecoderFollowsTheTable := by
  intro w
  have names := coveringNames_eq_decodedNames w
  cases hd : decodeWord w with
  | ok i => exact hd ▸ names
  | error r => exact hd ▸ names

/-! ### The words the decoder rejects (R101) -/

theorem edgeInstr_eq_error_iff {m : Mode} {k : Slot} {d : Level} {r : Reject} : edgeInstr m k d = .error r ↔
    (m = .read ∧ 11 ≤ k.toNat ∧ .reservedReadSlot = r) ∨ (m = .write ∧ 12 ≤ k.toNat ∧ .reservedWriteSlot = r) := by
  obtain ⟨p, hp, rfl⟩ := exists_lt_eq_ofNat k
  cases m with
  | read => interval_cases p <;> simp [edgeInstr]
  | write => interval_cases p <;> simp [edgeInstr]

theorem decodeWord_eq_error_iff {w : EventWord} {r : Reject} : decodeWord w = .error r ↔
    ((EventWord.kind w).toNat = 0 ∧ EventWord.mode w = .read ∧ 11 ≤ (EventWord.slot w).toNat ∧ .reservedReadSlot = r) ∨
    ((EventWord.kind w).toNat = 0 ∧ EventWord.mode w = .write ∧ 12 ≤ (EventWord.slot w).toNat ∧ .reservedWriteSlot = r) ∨
    (12 ≤ (EventWord.kind w).toNat ∧ .reservedKind = r) := by
  by_cases hk : EventWord.kind w = 0#4
  · simp [decodeWord_of_edge hk, edgeInstr_eq_error_iff, hk]
  · obtain ⟨k, lt, kind⟩ := exists_lt_eq_ofNat (EventWord.kind w)
    rw [decodeWord, kind]
    interval_cases k
    · exact absurd kind hk
    all_goals simp

end Sys2Proof

namespace Sys2Proof.Machine

variable {s : State} {e : Event} {rest : List Event}

theorem decodeWord_formWord_eq_error_iff {r : Reject} : decodeWord (formWord e s) = .error r ↔
    (e.kind.toNat = 0 ∧ s.mode = .read ∧ 11 ≤ s.pc.toNat ∧ .reservedReadSlot = r) ∨
    (e.kind.toNat = 0 ∧ s.mode = .write ∧ 12 ≤ s.pc.toNat ∧ .reservedWriteSlot = r) ∨
    (12 ≤ e.kind.toNat ∧ .reservedKind = r) := by
  simp [decodeWord_eq_error_iff, formWord]

/-! ### The step by what the decoder reads (R96, R101) -/

theorem step_of_decodeWord_ok {i : Instr} (he : s.events = e :: rest) (hd : decodeWord (formWord e s) = .ok i) :
    step s = exec i (loadEvent e rest s) := by rw [step_cons he, hd]

theorem step_of_decodeWord_error {r : Reject} (he : s.events = e :: rest) (hd : decodeWord (formWord e s) = .error r) :
    step s = .fault (faultOf r) := by rw [step_cons he, hd]

theorem step_of_events_nil (he : s.events = []) : step s = .next s := by rw [step, he]

/-- The word of the event, its slot the position register of the current mode. -/
theorem formWord_eq_make (e : Event) (s : State) :
    formWord e s = EventWord.make e.kind s.mode (if s.mode = .read then s.rdPos else s.wrPos) e.operand := by
  cases hm : s.mode with
  | read => simp [formWord, s.pc_of_read hm, hm]
  | write => simp [formWord, s.pc_of_write hm, hm]

/-- Settles O4: the decoder rejects in three cases, each by its name, and the step's fault on a rejected word has that name. -/
theorem reservedWordsAreFaults : Obligations.ReservedWordsAreFaults := by
  refine ⟨fun w => by simp [decodeWord_eq_error_iff, exists_or], fun s e rest he => ?_⟩
  refine ⟨fun hk => ?_, fun hk hm hp => ?_, fun hk hm hp => ?_⟩
  · exact step_of_decodeWord_error he (decodeWord_formWord_eq_error_iff.mpr (.inr (.inr ⟨hk, rfl⟩)))
  · rw [← s.pc_of_read hm] at hp
    exact step_of_decodeWord_error he (decodeWord_formWord_eq_error_iff.mpr (.inl ⟨by simp [hk], hm, hp, rfl⟩))
  · rw [← s.pc_of_write hm] at hp
    exact step_of_decodeWord_error he (decodeWord_formWord_eq_error_iff.mpr (.inr (.inl ⟨by simp [hk], hm, hp, rfl⟩)))

/-- Settles O6: the word the step decodes is that of the event with the current mode and its position. -/
theorem stepRunsTheSelectedOperation : Obligations.StepRunsTheSelectedOperation := by
  intro s
  simp only [← formWord_eq_make]
  exact ⟨fun _ _ _ he hd => step_of_decodeWord_ok he hd, fun _ _ _ he hd => step_of_decodeWord_error he hd, step_of_events_nil⟩

/-! ### Frame words (R93, R105) -/

/-- Fields put side by side by a shift and an OR add up. -/
theorem toNat_shiftLeft_or {w k : Nat} {x y : BitVec w} (fits : 2 ^ k * x.toNat < 2 ^ w) (below : y.toNat < 2 ^ k) :
    (x <<< k ||| y).toNat = 2 ^ k * x.toNat + y.toNat := by
  rw [BitVec.toNat_or, BitVec.toNat_shiftLeft, Nat.shiftLeft_eq, Nat.mul_comm, Nat.mod_eq_of_lt fits,
    Nat.two_pow_add_eq_or_of_lt below]

theorem readFrameWord_toNat (b : Byte) : (readFrameWord b).toNat = 1024 + 512 * (wireParity b).toNat + 2 * b.toNat := by
  have parity : ((BitVec.ofBool (wireParity b)).zeroExtend 11).toNat = (wireParity b).toNat := by
    rw [BitVec.toNat_setWidth_of_le (by decide), BitVec.toNat_ofBool]
  have parity_le : (wireParity b).toNat ≤ 1 := Bool.toNat_le _
  have data : (b.zeroExtend 11 <<< 1).toNat = 2 * b.toNat := by
    rw [BitVec.toNat_shiftLeft, BitVec.toNat_setWidth_of_le (by decide), Nat.shiftLeft_eq]
    omega
  have low : ((BitVec.ofBool (wireParity b)).zeroExtend 11 <<< 9 ||| b.zeroExtend 11 <<< 1).toNat =
      512 * (wireParity b).toNat + 2 * b.toNat := by
    rw [toNat_shiftLeft_or (by omega) (by omega), parity, data]
    norm_num
  rw [readFrameWord, BitVec.or_assoc, toNat_shiftLeft_or (by decide) (by omega), low]
  simp [Nat.add_assoc]

theorem writeFrameWord_toNat (b : Byte) (a : Level) : (writeFrameWord b a).toNat = 2048 * a.toNat + (readFrameWord b).toNat := by
  have ack : ((BitVec.ofBool a).zeroExtend 12).toNat = a.toNat := by
    rw [BitVec.toNat_setWidth_of_le (by decide), BitVec.toNat_ofBool]
  have ack_le : a.toNat ≤ 1 := Bool.toNat_le _
  have frame : ((readFrameWord b).zeroExtend 12).toNat = (readFrameWord b).toNat := BitVec.toNat_setWidth_of_le (by decide)
  rw [writeFrameWord, toNat_shiftLeft_or (by omega) (by omega), ack, frame]
  norm_num

/-- Bit `i` of `RF(b)` is the level of slot `i`: 0, the data bits, parity, 1. -/
theorem rxFrame_eq_rxRaw (b : Byte) : rxFrame b = rxRaw (readFrameWord b) := by
  simp [rxFrame, rxRaw, readFrameWord, List.range_succ, bitOf]

/-- Settles O54: a frame word's fields lie side by side, so their values add up, and its bits are the levels of the slots. -/
theorem frameWords : Obligations.FrameWords :=
  fun b a => ⟨readFrameWord_toNat b, writeFrameWord_toNat b a, rxFrame_eq_rxRaw b⟩

end Sys2Proof.Machine
end

section
/-! SUPPORT. Proofs of the statements of 40_edge_dispatch.md: the operation an edge selects (section 1, R123), and a tick as its phases
(section 2, R126): what it comes to without an edge, with one, with a deadline due, with a host command, and in the hold (R122). -/

namespace Sys2Proof

/-! ### The operation of a slot (R123, 30_encoding.md R100) -/

theorem edgeInstr_read_eq_ok_iff {k : Slot} {d : Level} {i : Instr} :
    edgeInstr .read k d = .ok i ↔ (Machine.readOps d)[k.toNat]? = some i := by
  obtain ⟨p, hp, rfl⟩ := exists_lt_eq_ofNat k
  interval_cases p <;> simp [edgeInstr, Machine.readOps]

theorem edgeInstr_write_eq_ok_iff {k : Slot} {d : Level} {i : Instr} :
    edgeInstr .write k d = .ok i ↔ (Machine.writeOps d)[k.toNat]? = some i := by
  obtain ⟨p, hp, rfl⟩ := exists_lt_eq_ofNat k
  interval_cases p <;> simp [edgeInstr, Machine.writeOps]

end Sys2Proof

namespace Sys2Proof.Machine

variable {s t : State} {c d : Level} {i : Instr}

theorem decodeWord_formWord_of_edge {e : Event} (hk : e.kind = 0#4) (s : State) :
    decodeWord (formWord e s) = edgeInstr s.mode s.pc (e.operand.getLsbD 0) := by
  rw [formWord, hk, decodeWord_make_edge]

theorem step_of_edge {e : Event} {rest : List Event} (he : s.events = e :: rest) (hk : e.kind = 0#4)
    (hi : edgeInstr s.mode s.pc (e.operand.getLsbD 0) = .ok i) : step s = exec i (loadEvent e rest s) :=
  step_of_decodeWord_ok he ((decodeWord_formWord_of_edge hk s).trans hi)

/-- Settles O7: the decoder reads mode and slot of an EDGE word, which the dispatch takes from the registers. -/
theorem edgeRunsTheOperationOfItsSlot : Obligations.EdgeRunsTheOperationOfItsSlot := by
  refine fun s e rest i he hk => ⟨fun hm hi => step_of_edge he hk ?_, fun hm hi => step_of_edge he hk ?_⟩
  · rw [hm, s.pc_of_read hm]
    exact edgeInstr_read_eq_ok_iff.mpr hi
  · rw [hm, s.pc_of_write hm]
    exact edgeInstr_write_eq_ok_iff.mpr hi

theorem atSlot_disabled {m : Mode} {k : Slot} {f : State → State} (h : ¬(s.mode = m ∧ s.pc = k)) :
    atSlot m k f s = .refused .notEnabled := if_neg h

/-- The operation (`m`, `k`) selects is a state change bound to that slot (R123). -/
theorem exec_eq_atSlot_of_edgeInstr {m : Mode} {k : Slot} (hi : edgeInstr m k d = .ok i) :
    ∃ f, ∀ s, exec i s = atSlot m k f s := by
  obtain ⟨p, hp, rfl⟩ := exists_lt_eq_ofNat k
  cases m with
  | read => interval_cases p <;> cases hi <;> exact ⟨_, fun _ => rfl⟩
  | write => interval_cases p <;> cases hi <;> exact ⟨_, fun _ => rfl⟩

/-- Settles O8: every edge operation is an `atSlot` of its own mode and slot. -/
theorem edgeOperationsOnlyWhereSelected : Obligations.EdgeOperationsOnlyWhereSelected := by
  intro m k d i s hi
  obtain ⟨f, hf⟩ := exec_eq_atSlot_of_edgeInstr hi
  rw [hf]
  exact ⟨fun ⟨hm, hk⟩ => ⟨f s, atSlot_enabled hm hk⟩, atSlot_disabled⟩

/-! ### The ports of a tick, which no other operation reads or writes (log entry 5) -/

/-- `s` with other inputs beside its tick. -/
def State.withPorts (p : Option HostCmd) (r : Bool) (s : State) : State := { s with portHost := p, portReset := r }

/-- `f` neither reads nor writes the ports. -/
def PortFree (f : State → State) : Prop := ∀ p r s, f (s.withPorts p r) = (f s).withPorts p r

/-- `f`, which can stop, neither reads nor writes the ports. -/
def PortBlind (f : State → Out) : Prop := ∀ p r s, f (s.withPorts p r) = andThen (f s) fun t => .next (t.withPorts p r)

theorem PortFree.comp {f g : State → State} (hg : PortFree g) (hf : PortFree f) : PortFree fun s => g (f s) :=
  fun p r s => (congrArg g (hf p r s)).trans (hg p r (f s))

theorem PortFree.next {f : State → State} (hf : PortFree f) : PortBlind fun s => .next (f s) :=
  fun p r s => congrArg Host.Outcome.next (hf p r s)

section

variable {q : State → Prop} [DecidablePred q]

/-- A branch on what the ports do not tell. -/
theorem PortFree.ite {f g : State → State} (hq : ∀ p r s, q (State.withPorts p r s) ↔ q s) (hf : PortFree f) (hg : PortFree g) :
    PortFree fun s => if q s then f s else g s := by
  intro p r s
  by_cases h : q s
  · simp only [h, (hq p r s).mpr h, if_true, hf p r s]
  · simp only [h, mt (hq p r s).mp h, if_false, hg p r s]

/-- A branch, where it can stop, on what the ports do not tell. -/
theorem PortBlind.ite {f g : State → Out} (hq : ∀ p r s, q (State.withPorts p r s) ↔ q s) (hf : PortBlind f) (hg : PortBlind g) :
    PortBlind fun s => if q s then f s else g s := by
  intro p r s
  by_cases h : q s
  · simp only [h, (hq p r s).mpr h, if_true, hf p r s]
  · simp only [h, mt (hq p r s).mp h, if_false, hg p r s]

end

theorem PortFree.atSlot {f : State → State} (hf : PortFree f) (m : Mode) (k : Slot) : PortBlind (atSlot m k f) :=
  .ite (q := fun s => s.mode = m ∧ s.pc = k) (fun _ _ _ => .rfl) hf.next fun _ _ _ => rfl

theorem andThen_assoc (o : Out) (f g : State → Out) : andThen (andThen o f) g = andThen o fun t => andThen (f t) g := by
  cases o <;> rfl

theorem PortBlind.andThen {f g : State → Out} (hf : PortBlind f) (hg : PortBlind g) : PortBlind fun s => andThen (f s) g := by
  intro p r s
  simp only [hf p r s, andThen_assoc, andThen_next]
  exact congrArg _ (funext (hg p r))

theorem PortBlind.ports_kept {f : State → Out} (hf : PortBlind f) (hx : f s = .next t) : t.withPorts s.portHost s.portReset = t := by
  have same := hf s.portHost s.portReset s
  rw [hx, andThen_next] at same
  exact (Host.Outcome.next.inj (hx.symm.trans same)).symm

/-! ### The operations of one event neither read nor write the ports -/

theorem raise_portFree (k : ErrorKind) : PortFree (State.raise · k) := fun _ _ _ => rfl

theorem setDeadline_portFree (d : Deadline) (v : Option Nat) : PortFree (State.setDeadline · d v) := by
  cases d <;> exact fun _ _ _ => rfl

theorem admitWrite_portFree (b : Byte) : PortFree (admitWrite b) := by
  intro p r s
  simp only [admitWrite_eq]
  rfl

theorem countResend_portFree : PortFree countResend := by
  intro p r s
  cases hm : s.par.resendMax <;> simp [countResend, State.withPorts, hm]

theorem initiateWrite_withPorts (b : Byte) (p : Option HostCmd) (r : Bool) (s : State) :
    initiateWrite b (s.withPorts p r) = ((initiateWrite b s).1.withPorts p r, (initiateWrite b s).2) := by
  cases hm : s.mode with
  | read =>
    rw [initiateWrite_read b hm, ← admitWrite_portFree]
    exact initiateWrite_read b hm
  | write =>
    rw [initiateWrite_write b hm]
    exact initiateWrite_write b hm

theorem abortResend_portFree : PortFree abortResend := by
  have reset : PortFree readReset := fun _ _ _ => rfl
  have resent : PortFree fun s => (initiateWrite s.par.resendByte (countResend s)).1 := by
    intro p r s
    simp only [countResend_portFree p r s, initiateWrite_withPorts]
    rfl
  exact (resent.ite (q := fun s => resendAllowed s = true) (g := id) (fun _ _ _ => .rfl) fun _ _ _ => rfl).comp reset

theorem alloc_withPorts (p : Option HostCmd) (r : Bool) (s : State) :
    alloc (s.withPorts p r) = ((alloc s).1, (alloc s).2.withPorts p r) := by
  by_cases hc : s.par.queueCap = some s.queue.length
  · rw [alloc_at_cap hc]
    exact alloc_at_cap hc
  · cases hd : s.allocDraws <;> simp [alloc, State.withPorts, hc, hd]

theorem queueAdd_portFree (b : Byte) : PortFree (queueAdd b) := by
  intro p r s
  have purged : alloc (flush ((alloc s).2.withPorts p r)) = _ := alloc_withPorts p r (flush (alloc s).2)
  simp only [queueAdd, alloc_withPorts, purged]
  split
  · rfl
  · split <;> rfl

theorem deliver_portFree (b : Byte) : PortFree (deliver b) :=
  .ite (q := fun s => s.cb = .present ∧ s.cbEnabled = true) (fun _ _ _ => .rfl) (fun _ _ _ => rfl) (queueAdd_portFree b)

theorem finalize_portFree : PortFree finalize := by
  intro p r s
  rw [finalize_eq, finalize_eq, ← deliver_portFree]
  rfl

theorem readStartSlot_portFree (d : Level) : PortFree (readStartSlot d) :=
  .ite (q := fun _ => d = true) (fun _ _ _ => .rfl) (fun _ _ _ => rfl) fun _ _ _ => rfl

theorem readDataSlot_portFree (j : Nat) (d : Level) : PortFree (readDataSlot j d) := fun _ _ _ => rfl

theorem readParitySlot_portFree (d : Level) : PortFree (readParitySlot d) :=
  .ite (q := fun s => d = wireParity s.rdAcc) (g := fun s => abortResend (s.raise .invalidParity)) (fun _ _ _ => .rfl)
    (fun _ _ _ => rfl) (abortResend_portFree.comp (raise_portFree _))

theorem readStopSlot_portFree (d : Level) : PortFree (readStopSlot d) :=
  .ite (q := fun _ => d = true) (g := fun s => abortResend (s.raise .invalidStopBit)) (fun _ _ _ => .rfl) finalize_portFree
    (abortResend_portFree.comp (raise_portFree _))

theorem readTimeout_portFree : PortFree readTimeout :=
  .ite (q := fun s => s.rdPos.toNat ≤ s.par.earlyAbortMaxPos) (g := fun s => abortResend (s.raise .timeout)) (fun _ _ _ => .rfl)
    (fun _ _ _ => rfl) (abortResend_portFree.comp (raise_portFree _))

theorem writeDataSlot_portFree (j : Nat) : PortFree (writeDataSlot j) := fun _ _ _ => rfl

theorem writeParitySlot_portFree : PortFree fun s => writeDriveSlot (wireParity s.wrByte) s := fun _ _ _ => rfl

theorem writeStopSlot_portFree : PortFree writeStopSlot := fun _ _ _ => rfl

theorem writeAckSlot_portFree (d : Level) : PortFree (writeAckSlot d) :=
  .ite (q := fun _ => d = true) (fun _ _ _ => .rfl) (fun _ _ _ => rfl) fun _ _ _ => rfl

theorem execToRead_eq (s : State) : execToRead s =
    if s.dlRead = none then .refused .deadlineNotArmed
    else if s.mode = .read then .next (readTimeout s) else .fault .readDeadlineInWriteMode := by
  cases hd : s.dlRead <;> cases hm : s.mode <;> simp [execToRead, hd, hm]

theorem execToWrite_eq (s : State) : execToWrite s =
    if s.dlWrite = none then .refused .deadlineNotArmed
    else if s.mode = .write then .next (finish .failure (s.raise .timeout)) else .fault .writeDeadlineInReadMode := by
  rw [← finish_cancel_raise]
  cases hd : s.dlWrite <;> cases hm : s.mode <;> simp [execToWrite, hd, hm]

theorem execToInhibit_eq (s : State) : execToInhibit s =
    if s.dlInhibit = none then .refused .deadlineNotArmed
    else if InHold s then .next (releaseClock s) else .fault .inhibitDeadlineOutsideHold := by
  cases hd : s.dlInhibit <;> simp [execToInhibit, hd]

theorem execToRead_portBlind : PortBlind execToRead := by
  rw [funext execToRead_eq]
  exact .ite (fun _ _ _ => .rfl) (fun _ _ _ => rfl) (.ite (fun _ _ _ => .rfl) readTimeout_portFree.next fun _ _ _ => rfl)

theorem execToWrite_portBlind : PortBlind execToWrite := by
  have failed : PortFree fun s => finish .failure (s.raise .timeout) := fun _ _ _ => rfl
  rw [funext execToWrite_eq]
  exact .ite (fun _ _ _ => .rfl) (fun _ _ _ => rfl) (.ite (fun _ _ _ => .rfl) failed.next fun _ _ _ => rfl)

theorem execToInhibit_portBlind : PortBlind execToInhibit := by
  have released : PortFree releaseClock := fun _ _ _ => rfl
  rw [funext execToInhibit_eq]
  exact .ite (fun _ _ _ => .rfl) (fun _ _ _ => rfl) (.ite (fun _ _ _ => .rfl) released.next fun _ _ _ => rfl)

theorem execHWrite_portBlind (b : Byte) : PortBlind (execHWrite b) := by
  intro p r s
  simp only [execHWrite, initiateWrite_withPorts]
  rfl

theorem execHCollect_portBlind : PortBlind execHCollect :=
  .ite (q := fun s => s.lock = true) (fun _ _ _ => .rfl) (fun _ _ _ => rfl) fun _ _ _ => rfl

theorem execHRead_portBlind : PortBlind execHRead := by
  intro p r s
  have same : (s.withPorts p r).queue = s.queue := rfl
  simp only [execHRead, same]
  cases s.queue <;> rfl

/-- The operations of one event stand apart from the ports: what accompanies a tick reaches them only through its last phase. -/
theorem exec_portBlind (hi : singleEvent i = true) : PortBlind (exec i) := by
  cases i with
  | rdStart d => exact (readStartSlot_portFree d).atSlot _ _
  | rdData1 d | rdData2 d | rdData3 d | rdData4 d | rdData5 d | rdData6 d | rdData7 d | rdData8 d =>
    exact (readDataSlot_portFree _ d).atSlot _ _
  | rdParity d => exact (readParitySlot_portFree d).atSlot _ _
  | rdStop d => exact (readStopSlot_portFree d).atSlot _ _
  | wrStart d => exact (setDeadline_portFree .write none).atSlot _ _
  | wrData1 d | wrData2 d | wrData3 d | wrData4 d | wrData5 d | wrData6 d | wrData7 d | wrData8 d =>
    exact (writeDataSlot_portFree _).atSlot _ _
  | wrParity d => exact writeParitySlot_portFree.atSlot _ _
  | wrStop d => exact writeStopSlot_portFree.atSlot _ _
  | wrAck d => exact (writeAckSlot_portFree d).atSlot _ _
  | toRead => exact execToRead_portBlind
  | toWrite => exact execToWrite_portBlind
  | toInhibit => exact execToInhibit_portBlind
  | hWrite b => exact execHWrite_portBlind b
  | hCollect => exact execHCollect_portBlind
  | hConfigure p => cases p <;> exact PortFree.next (fun _ _ _ => rfl)
  | hEnableCb | hDisableCb => exact PortFree.next (fun _ _ _ => rfl)
  | hRead => exact execHRead_portBlind
  | reset | tick c d => cases hi

/-! ### The phases of a tick before its host command -/

/-- Phases 1 to 4 of a tick: what the device and the time make of it (R126). -/
def deviceTick (c d : Level) (s : State) : Out := andThen (edgePhase c d (countPhase s)) deadlinePhase

theorem dispatchEdge_portBlind (d : Level) : PortBlind (dispatchEdge d) := by
  intro p r s
  rw [dispatchEdge_eq, dispatchEdge_eq]
  have same : edgeInstr (s.withPorts p r).mode (s.withPorts p r).pc d = edgeInstr s.mode s.pc d := rfl
  rw [same]
  cases hi : edgeInstr s.mode s.pc d with
  | ok i => exact exec_portBlind (singleEvent_of_edgeInstr hi) p r s
  | error e => rfl

theorem edgePhase_portBlind (c d : Level) : PortBlind (edgePhase c d) := by
  intro p r s
  cases he : fallingEdge s.sclPrev (s.lineRead .scl c) && s.irqEn with
  | false =>
    rw [edgePhase_quiet c d he]
    exact edgePhase_quiet c d he
  | true =>
    rw [edgePhase_edge c d he, ← dispatchEdge_portBlind]
    exact edgePhase_edge c d he

theorem deadlinePhase_portBlind : PortBlind deadlinePhase :=
  .ite (q := fun s => s.dlRead = some 0) (fun _ _ _ => .rfl) execToRead_portBlind <|
    .ite (q := fun s => s.dlWrite = some 0) (fun _ _ _ => .rfl) execToWrite_portBlind <|
      .ite (q := fun s => s.dlInhibit = some 0) (fun _ _ _ => .rfl) execToInhibit_portBlind fun _ _ _ => rfl

theorem deviceTick_portBlind (c d : Level) : PortBlind (deviceTick c d) := by
  have edge : PortBlind fun s => edgePhase c d (countPhase s) := fun p r s => edgePhase_portBlind c d p r (countPhase s)
  exact edge.andThen deadlinePhase_portBlind

/-- A tick without `reset` is its first four phases, then the host's (R126). -/
theorem execTick_eq_deviceTick_andThen (hr : s.portReset = false) : execTick c d s = andThen (deviceTick c d s) hostPhase :=
  execTick_phases c d hr

theorem hostPhase_idle (hp : s.portHost = none) : hostPhase s = .next s := by rw [hostPhase, hp]

theorem execTick_of_portHost_none (hr : s.portReset = false) (hp : s.portHost = none) : execTick c d s = deviceTick c d s := by
  rw [execTick_eq_deviceTick_andThen hr]
  cases hx : deviceTick c d s with
  | next v =>
    have idle : v.portHost = none := by rw [← (deviceTick_portBlind c d).ports_kept hx]; exact hp
    rw [andThen_next, hostPhase_idle idle]
  | fault f => rfl
  | refused f => rfl

/-- The command waits for what the tick without it comes to (R126). -/
theorem execTick_of_portHost_some (cmd : HostCmd) (hr : s.portReset = false) :
    execTick c d { s with portHost := some cmd } = andThen (execTick c d { s with portHost := none }) (exec cmd.toInstr) := by
  have bare : execTick c d { s with portHost := none } = deviceTick c d { s with portHost := none } :=
    execTick_of_portHost_none hr rfl
  have blind : deviceTick c d { s with portHost := some cmd } = _ :=
    deviceTick_portBlind c d (some cmd) s.portReset { s with portHost := none }
  rw [execTick_eq_deviceTick_andThen (s := { s with portHost := some cmd }) hr, blind, bare, andThen_assoc]
  cases hx : deviceTick c d { s with portHost := none } with
  | next v =>
    have kept : v.withPorts none s.portReset = v := (deviceTick_portBlind c d).ports_kept hx
    have taken : hostPhase (v.withPorts (some cmd) s.portReset) = runHost cmd (v.withPorts none s.portReset) := rfl
    rw [andThen_next, andThen_next, andThen_next, taken, kept, runHost_eq_exec]
  | fault f => rfl
  | refused f => rfl

/-- Settles O40: the phases before the last neither read nor write the port of the command. -/
theorem hostCommandRunsLast : Obligations.HostCommandRunsLast := by
  intro s c d hc hr
  have last := execTick_of_portHost_some (c := c) (d := d) hc hr
  refine ⟨fun u hu => ?_, fun f hf => ?_⟩
  · exact last.trans (congrArg (andThen · (exec hc.toInstr)) hu)
  · exact last.trans (congrArg (andThen · (exec hc.toInstr)) hf)

/-! ### What the phases come to -/

theorem countPhase_sclLevel (s : State) (c : Level) : (countPhase s).lineRead .scl c = sclLevel s c := lineRead_scl_eq s c

theorem edgeSeen_iff : EdgeSeen s c ↔
    (fallingEdge (countPhase s).sclPrev ((countPhase s).lineRead .scl c) && (countPhase s).irqEn) = true := by
  rw [countPhase_sclLevel]
  simp [EdgeSeen, fallingEdge, countPhase, and_assoc]

theorem countPhase_sampled (s : State) (c : Level) :
    { countPhase s with sclPrev := (countPhase s).lineRead .scl c } = sampled s c := by
  rw [countPhase_sclLevel]
  simp only [countPhase, countDown_eq, sampled]

theorem edgePhase_of_not_edgeSeen (he : ¬EdgeSeen s c) : edgePhase c d (countPhase s) = .next (sampled s c) := by
  rw [edgePhase_quiet c d (Bool.eq_false_iff.mpr (mt edgeSeen_iff.mpr he)), countPhase_sampled]

theorem edgePhase_of_edgeSeen (he : EdgeSeen s c) : edgePhase c d (countPhase s) = dispatchEdge (sdaLevel s d) (sampled s c) := by
  have level : (countPhase s).lineRead .sda d = sdaLevel s d := lineRead_sda_eq s d
  rw [edgePhase_edge c d (edgeSeen_iff.mp he), countPhase_sampled, level]

/-- A tick without an edge and without a command is phase 4 on the counted state (R126). -/
theorem tick_of_not_edgeSeen (hr : s.portReset = false) (hp : s.portHost = none) (he : ¬EdgeSeen s c) :
    exec (.tick c d) s = deadlinePhase (sampled s c) := by
  rw [exec, execTick_of_portHost_none hr hp, deviceTick, edgePhase_of_not_edgeSeen he, andThen_next]

theorem deadlinePhase_read (hr : s.dlRead = some 0) : deadlinePhase s = execToRead s := if_pos hr

theorem deadlinePhase_write (hr : s.dlRead ≠ some 0) (hw : s.dlWrite = some 0) : deadlinePhase s = execToWrite s := by
  rw [deadlinePhase, if_neg hr, if_pos hw]

theorem deadlinePhase_inhibit (hr : s.dlRead ≠ some 0) (hw : s.dlWrite ≠ some 0) (hi : s.dlInhibit = some 0) :
    deadlinePhase s = execToInhibit s := by
  rw [deadlinePhase, if_neg hr, if_neg hw, if_pos hi]

/-- A counter comes to 0 from 1, or stays there (R126). -/
theorem map_pred_eq_some_zero_iff {o : Option Nat} : o.map (· - 1) = some 0 ↔ o = some 1 ∨ o = some 0 := by
  cases o with
  | none => simp
  | some n =>
    simp only [Option.map_some, Option.some.injEq]
    omega

/-- Settles O36: nothing is dispatched, and no counter that is neither 0 nor 1 is counted to 0. -/
theorem quietTickOnlyCounts : Obligations.QuietTickOnlyCounts := by
  intro s c d hr hp he r0 r1 w0 w1 i0 i1
  rw [tick_of_not_edgeSeen hr hp he]
  exact deadlinePhase_quiet (mt map_pred_eq_some_zero_iff.mp (not_or.mpr ⟨r1, r0⟩))
    (mt map_pred_eq_some_zero_iff.mp (not_or.mpr ⟨w1, w0⟩)) (mt map_pred_eq_some_zero_iff.mp (not_or.mpr ⟨i1, i0⟩))

/-- Settles O37: the edge is dispatched on the counted state, and what it leaves has no deadline due. -/
theorem tickHandlesTheEdge : Obligations.TickHandlesTheEdge := by
  intro s u c d i hr hp he hi hu r0 w0 i0
  have dispatched : dispatchEdge (sdaLevel s d) (sampled s c) = .next u := by
    have selected : edgeInstr (sampled s c).mode (sampled s c).pc (sdaLevel s d) = .ok i := hi
    rw [dispatchEdge_eq, selected]
    exact hu
  rw [exec, execTick_of_portHost_none hr hp, deviceTick, edgePhase_of_edgeSeen he, dispatched, andThen_next,
    deadlinePhase_quiet r0 w0 i0]

/-- Settles O38: phase 4 on the counted state looks at `dl_read`, `dl_write` and `dl_inhibit` in this order. -/
theorem deadlineFiresInItsTick : Obligations.DeadlineFiresInItsTick := by
  intro s c d hr hp he
  rw [tick_of_not_edgeSeen hr hp he]
  have counted {o : Option Nat} (disarmed : o = none) : o.map (· - 1) ≠ some 0 := by simp [disarmed]
  refine ⟨fun due => ?_, fun read due => ?_, fun read write due => ?_⟩
  · exact deadlinePhase_read (map_pred_eq_some_zero_iff.mpr due)
  · exact deadlinePhase_write (counted read) (map_pred_eq_some_zero_iff.mpr due)
  · exact deadlinePhase_inhibit (counted read) (counted write) (map_pred_eq_some_zero_iff.mpr due)

/-- Settles O42: the hold has the interrupt off and no other deadline armed, so its ticks are quiet, and the block holds SCL low. -/
theorem edgesAreLostDuringTheHold : Obligations.EdgesAreLostDuringTheHold := by
  intro s c d n h hh hr hp hn
  have hold := h.holding hh
  have unseen : ¬EdgeSeen s c := by simp [EdgeSeen, hold.irqEn]
  have quiet := quietTickOnlyCounts s c d hr hp unseen (by simp [hold.dlRead]) (by simp [hold.dlRead]) (by simp [hold.dlWrite])
    (by simp [hold.dlWrite]) (by simp [hn]) (by simp [hn])
  simp [quiet, sampled, sclLevel, hold.dlRead, hold.dlWrite, hn, hold.sclDir, hold.sclOut]

/-! ### Every tick completes (R126) -/

theorem completes_andThen {o : Out} {f : State → Out} (ho : completes o) (hf : ∀ u, o = .next u → completes (f u)) :
    completes (andThen o f) := by
  obtain ⟨u, rfl⟩ := ho
  exact hf u rfl

theorem completes_exec_toInstr (cmd : HostCmd) (s : State) : completes (exec cmd.toInstr s) := by
  cases cmd with
  | write b => exact ⟨_, rfl⟩
  | collect => cases hl : s.lock <;> simp [completes, HostCmd.toInstr, exec, execHCollect, hl]
  | configure p => cases p <;> exact ⟨_, rfl⟩
  | enableCb | disableCb => exact ⟨_, rfl⟩
  | read => cases hq : s.queue <;> simp [completes, HostCmd.toInstr, exec, execHRead, hq]

/-- The positions stay in their frames, so an edge always selects an operation (10_state.md R27). -/
theorem completes_dispatchEdge (d : Level) (h : Inv s) : completes (dispatchEdge d s) := by
  rw [dispatchEdge_eq]
  cases hi : edgeInstr s.mode s.pc d with
  | ok i =>
    obtain ⟨completing, -⟩ := edgeOperationsOnlyWhereSelected s.mode s.pc d i s hi
    exact completing ⟨rfl, rfl⟩
  | error e =>
    obtain ⟨rd, wr⟩ := h.positions
    obtain ⟨hm, hp, -⟩ | ⟨hm, hp, -⟩ := edgeInstr_eq_error_iff.mp hi
    · rw [s.pc_of_read hm] at hp
      omega
    · rw [s.pc_of_write hm] at hp
      omega

theorem completes_edgePhase (c d : Level) (h : Inv s) : completes (edgePhase c d s) := by
  cases he : fallingEdge s.sclPrev (s.lineRead .scl c) && s.irqEn with
  | false => exact ⟨_, edgePhase_quiet c d he⟩
  | true =>
    rw [edgePhase_edge c d he]
    exact completes_dispatchEdge _ h.of_unconstrained

theorem Inv.reading_of_dlRead (h : Inv s) (hr : s.dlRead ≠ none) : Reading s := by
  obtain reading | hold | clocking := h.shapes
  · exact reading
  · exact absurd hold.dlRead hr
  · exact absurd clocking.dlRead hr

theorem Inv.holding_of_dlInhibit (h : Inv s) (hi : s.dlInhibit ≠ none) : Holding s := by
  obtain reading | hold | clocking := h.shapes
  · exact absurd reading.dlInhibit hi
  · exact hold
  · exact absurd clocking.dlInhibit hi

/-- Each deadline is armed only in its own phase (10_state.md R43 to R48), where its operation runs. -/
theorem completes_deadlinePhase (h : Inv s) : completes (deadlinePhase s) := by
  by_cases hr : s.dlRead = some 0
  · have armed : s.dlRead ≠ none := by simp [hr]
    rw [deadlinePhase_read hr]
    exact ⟨_, execToRead_eq_next.mpr ⟨armed, (h.reading_of_dlRead armed).mode, rfl⟩⟩
  by_cases hw : s.dlWrite = some 0
  · have armed : s.dlWrite ≠ none := by simp [hw]
    rw [deadlinePhase_write hr hw]
    exact ⟨_, execToWrite_eq_next.mpr ⟨armed, (h.clocking_of_dlWrite armed).mode, rfl⟩⟩
  by_cases hi : s.dlInhibit = some 0
  · have armed : s.dlInhibit ≠ none := by simp [hi]
    have hold := h.holding_of_dlInhibit armed
    rw [deadlinePhase_inhibit hr hw hi]
    exact ⟨_, execToInhibit_eq_next.mpr ⟨armed, ⟨hold.mode, hold.wrPos⟩, rfl⟩⟩
  exact ⟨s, deadlinePhase_quiet hr hw hi⟩

theorem completes_hostPhase (s : State) : completes (hostPhase s) := by
  cases hp : s.portHost with
  | none => exact ⟨s, hostPhase_idle hp⟩
  | some cmd =>
    rw [hostPhase, hp]
    simp only [runHost_eq_exec]
    exact completes_exec_toInstr cmd _

/-- Settles O41: a `RESET` completes, and so does each phase on what the phase before it left, which the invariant holds of. -/
theorem tickAlwaysCompletes : Obligations.TickAlwaysCompletes := by
  intro s c d h
  cases hr : s.portReset with
  | true => exact ⟨_, execTick_reset c d hr⟩
  | false =>
    have counted : Inv (countPhase s) := inv_countPhase h
    rw [exec, execTick_phases c d hr]
    refine completes_andThen (completes_andThen (completes_edgePhase c d counted) fun u hu => ?_) fun v _ => completes_hostPhase v
    exact completes_deadlinePhase (inv_edgePhase counted hu)

/-! ### No deadline is left at 0 (R126, corner cases (a) and (b)) -/

theorem deadlinesPositive_iff {p : Params} :
    p.deadlinesPositive = true ↔ 0 < p.tReadBit ∧ 0 < p.tWriteBit ∧ 0 < p.tWriteFirst ∧ 0 < p.tInhibit := by
  simp [Params.deadlinesPositive, and_assoc]

theorem pending_admitWrite (b : Byte) (hw : s.dlWrite ≠ some 0) (hp : 0 < s.par.tInhibit) : DeadlinesPending (admitWrite b s) := by
  rw [admitWrite_eq]
  exact ⟨by simp, hw, by simp [hp.ne']⟩

theorem pending_readReset (hw : s.dlWrite ≠ some 0) (hi : s.dlInhibit ≠ some 0) : DeadlinesPending (readReset s) := by
  rw [readReset_eq]
  exact ⟨by simp, hw, hi⟩

theorem pending_abortResend (hm : s.mode = .read) (hw : s.dlWrite ≠ some 0) (hi : s.dlInhibit ≠ some 0) (hp : 0 < s.par.tInhibit) :
    DeadlinesPending (abortResend s) := by
  rw [abortResend_read hm]
  split
  · exact pending_admitWrite _ hw hp
  · split
    · exact pending_admitWrite _ hw hp
    · exact pending_readReset hw hi

theorem pending_readTimeout (h : Reading s) (hp : 0 < s.par.tInhibit) : DeadlinesPending (readTimeout s) := by
  have hw : s.dlWrite ≠ some 0 := by simp [h.dlWrite]
  have hi : s.dlInhibit ≠ some 0 := by simp [h.dlInhibit]
  rw [readTimeout_eq]
  split
  · exact pending_readReset hw hi
  · exact pending_abortResend h.mode hw hi hp

theorem pending_finish (k : Completion) (h : Clocking s) : DeadlinesPending (finish k s) := by
  rw [finish_eq]
  simp [DeadlinesPending, h.dlRead, h.dlInhibit]

theorem pending_releaseClock (h : Holding s) (hp : 0 < s.par.tWriteFirst) : DeadlinesPending (releaseClock s) := by
  rw [releaseClock_eq]
  simp [DeadlinesPending, h.dlRead, hp.ne']

/-- At most one deadline is armed, so phase 4 leaves none at 0: the one at 0 has fired, and what it arms starts above 0. -/
theorem pending_of_deadlinePhase (h : Inv s) (hp : s.par.deadlinesPositive = true) (hx : deadlinePhase s = .next t) :
    DeadlinesPending t := by
  obtain ⟨-, -, clock, inhibit⟩ := deadlinesPositive_iff.mp hp
  obtain ⟨-, hx⟩ | ⟨-, -, hx⟩ | ⟨-, -, -, hx⟩ | ⟨hr, hw, hi, rfl⟩ := deadlinePhase_cases hx
  · obtain ⟨armed, -, rfl⟩ := execToRead_eq_next.mp hx
    exact pending_readTimeout (h.reading_of_dlRead armed) inhibit
  · obtain ⟨armed, -, rfl⟩ := execToWrite_eq_next.mp hx
    rw [finish_cancel_raise]
    exact pending_finish _ ((h.clocking_of_dlWrite armed).raise _)
  · obtain ⟨armed, -, rfl⟩ := execToInhibit_eq_next.mp hx
    exact pending_releaseClock (h.holding_of_dlInhibit armed) clock
  · exact ⟨hr, hw, hi⟩

theorem pending_emit (h : DeadlinesPending s) (o : Output) : DeadlinesPending (s.emit o) := h

theorem pending_initiateWrite (b : Byte) (h : DeadlinesPending s) (hp : 0 < s.par.tInhibit) :
    DeadlinesPending (initiateWrite b s).1 := by
  cases hm : s.mode with
  | read =>
    obtain ⟨-, write, -⟩ := h
    rw [initiateWrite_read b hm]
    exact pending_admitWrite b write hp
  | write =>
    rw [initiateWrite_write b hm]
    exact h

/-- The only deadline a host command arms is that of the hold, by `H.WRITE` (42_write_frame.md R170). -/
theorem pending_of_exec_toInstr {cmd : HostCmd} (h : DeadlinesPending s) (hp : 0 < s.par.tInhibit)
    (hx : exec cmd.toInstr s = .next t) : DeadlinesPending t := by
  cases cmd with
  | write b =>
    cases hx
    exact pending_emit (pending_initiateWrite b h hp) _
  | collect =>
    simp only [HostCmd.toInstr, exec, execHCollect] at hx
    split at hx <;> cases hx <;> exact h
  | configure p => cases p <;> cases hx <;> exact h
  | enableCb | disableCb =>
    cases hx
    exact h
  | read =>
    simp only [HostCmd.toInstr, exec, execHRead] at hx
    split at hx <;> cases hx <;> exact h

theorem pending_of_hostPhase (h : DeadlinesPending s) (hp : 0 < s.par.tInhibit) (hx : hostPhase s = .next t) : DeadlinesPending t := by
  obtain ⟨-, rfl⟩ | ⟨cmd, -, hx⟩ := hostPhase_cases hx
  · exact h
  · rw [runHost_eq_exec] at hx
    exact pending_of_exec_toInstr (s := { s with portHost := none }) h hp hx

/-- Settles O43: phase 4 leaves no deadline at 0, whatever the phases before it did, and the host command keeps it so. -/
theorem ticksLeaveNoDeadlineAtZero : Obligations.TicksLeaveNoDeadlineAtZero := by
  intro s t c d h _ hp hx
  obtain ⟨-, rfl⟩ | ⟨-, u, v, hu, hv, ht⟩ := execTick_cases hx
  · exact ⟨nofun, nofun, nofun⟩
  · have par : u.par = s.par := ((countPhase_extends s).trans (edgePhase_extends hu)).par
    have positive : u.par.deadlinesPositive = true := par ▸ hp
    have pending : DeadlinesPending v := pending_of_deadlinePhase (inv_edgePhase (inv_countPhase h) hu) positive hv
    obtain ⟨-, -, -, inhibit⟩ := deadlinesPositive_iff.mp positive
    rw [← (deadlinePhase_extends hv).par] at inhibit
    exact pending_of_hostPhase pending inhibit ht

end Sys2Proof.Machine
end

section
/-! SUPPORT. Proofs of the statements of 41_read_frame.md: the aborts (R155, R156), the operation of each read slot (R141 to R152), where
bytes come from, and the round trip of a whole frame (R158). -/

namespace Sys2Proof.Machine

variable {s t : State} {d : Level}

/-! ### The aborts (R155 to R157) -/

theorem frameDropped_eq (s : State) : frameDropped s = readReset s := rfl

theorem writeAdmitted_eq (b : Byte) (s : State) : writeAdmitted b s = admitWrite b s := (admitWrite_eq b s).symm

theorem admitWrite_resendCnt (b : Byte) (n : Nat) (s : State) :
    admitWrite b { s with resendCnt := n } = { admitWrite b s with resendCnt := n } := by
  simp only [admitWrite_eq]

theorem abortResend_eq_frameResent (hm : s.mode = .read) : abortResend s = frameResent s := by
  rw [abortResend_read hm]
  unfold frameResent
  cases hr : s.par.resendMax with
  | none => exact (writeAdmitted_eq _ s).symm
  | some m =>
    by_cases room : s.resendCnt < m
    · simp only [room, if_true, admitWrite_resendCnt, writeAdmitted_eq]
    · simp only [room, if_false, frameDropped_eq]

/-- Settles O15: the aborts are the statement's own words for them, and in Read mode the admission check of `H.WRITE` passes. -/
theorem abortsFollowTheResendBound : Obligations.AbortsFollowTheResendBound :=
  fun s => ⟨rfl, abortResend_eq_frameResent, fun hm => congrArg Prod.snd (initiateWrite_read s.par.resendByte hm)⟩

/-! ### The operation of each slot (R141 to R152) -/

/-- A read operation at its own slot runs. -/
theorem atSlot_read {k : Slot} (f : State → State) (hm : s.mode = .read) (hp : s.rdPos = k) : atSlot .read k f s = .next (f s) :=
  atSlot_enabled hm ((s.pc_of_read hm).trans hp)

/-- An ERR raised in Read mode at slot `k`. -/
theorem raise_read {k : Slot} (e : ErrorKind) (hm : s.mode = .read) (hp : s.rdPos = k) :
    s.raise e = s.emit (.err e .read k) := by
  rw [State.raise_eq, s.pc_of_read hm, hm, hp]

/-- A read side at rest is as `ReadReset` leaves it. -/
theorem readReset_eq_self (hp : s.rdPos = 0#4) (ha : s.rdAcc = 0x00#8) (hd : s.dlRead = none) : readReset s = s := by
  rw [readReset_eq, ← hp, ← ha, ← hd]

/-- The invariant has no state in Read mode at Start but those whose read side is at rest. -/
theorem Reading.readReset_eq_self (h : Reading s) (hp : s.rdPos = 0#4) : Machine.readReset s = s :=
  Machine.readReset_eq_self hp (h.accClear hp) (not_not.mp fun armed => h.guard.mp armed hp)

/-- Settles O11: a 0 is accepted; a 1 is reported and drops the frame, which at rest changes nothing. -/
theorem readStartSlot_holds : Obligations.ReadStartSlot := by
  intro s hm hp
  have start (d : Level) : exec (.rdStart d) s = .next (if d then readReset (s.raise .invalidStartBit) else readEpilogue s) :=
    atSlot_read (readStartSlot d) hm hp
  have rejected : exec (.rdStart true) s = .next { frameDropped s with outs := s.outs ++ [.err .invalidStartBit .read 0#4] } := by
    rw [start, raise_read .invalidStartBit hm hp]
    rfl
  refine ⟨?_, rejected, fun ha hd => ?_⟩
  · rw [start, readEpilogue_eq, hp]
    rfl
  · rw [rejected, frameDropped_eq, readReset_eq_self hp ha hd]

theorem readDataSlot_eq (j : Nat) (d : Level) (s : State) : readDataSlot j d s =
    { s with rdAcc := insertBit s.rdAcc j d, rdPos := s.rdPos + 1#4, dlRead := some s.par.tReadBit } := rfl

/-- The operation that stores bit `j` at slot `j + 1` stores it as its rule says. -/
theorem storesDataBit_of_exec {op : Level → Instr} {j : Nat} (hj : j < 8)
    (hx : ∀ d s, exec (op d) s = atSlot .read (BitVec.ofNat 4 (j + 1)) (readDataSlot j d) s) : StoresDataBit op (j + 1) := by
  intro s d hm hp
  refine ⟨insertBit s.rdAcc j d, ?_, fun i hi => ?_⟩
  · rw [hx, atSlot_read _ hm hp, readDataSlot_eq, hp, ← BitVec.ofNat_add]
  · simp only [insertBit_getLsbD _ _ _ _ hj hi, Nat.add_right_cancel_iff]

/-- Settles O12: slot `j + 1` stores bit `j`. -/
theorem readDataSlots : Obligations.ReadDataSlots :=
  ⟨storesDataBit_of_exec (j := 0) (by decide) fun _ _ => rfl, storesDataBit_of_exec (j := 1) (by decide) fun _ _ => rfl,
    storesDataBit_of_exec (j := 2) (by decide) fun _ _ => rfl, storesDataBit_of_exec (j := 3) (by decide) fun _ _ => rfl,
    storesDataBit_of_exec (j := 4) (by decide) fun _ _ => rfl, storesDataBit_of_exec (j := 5) (by decide) fun _ _ => rfl,
    storesDataBit_of_exec (j := 6) (by decide) fun _ _ => rfl, storesDataBit_of_exec (j := 7) (by decide) fun _ _ => rfl⟩

theorem evenParityBit_eq_wireParity (v : Byte) : evenParityBit v = wireParity v := by
  rw [Bool.eq_iff_iff, evenParityBit, decide_eq_true_iff, wireParity_iff_bitCount_even]

/-- Settles O13: the accepted level is the wire parity of the accumulator; the abort that answers the other one is `AbortResend`. -/
theorem readParitySlot_holds : Obligations.ReadParitySlot := by
  intro s d hm hp
  have parity : exec (.rdParity d) s =
      .next (if d = wireParity s.rdAcc then readEpilogue s else abortResend (s.raise .invalidParity)) :=
    atSlot_read (readParitySlot d) hm hp
  rw [parity, evenParityBit_eq_wireParity]
  constructor
  · intro accepted
    rw [if_pos accepted, readEpilogue_eq, hp]
    rfl
  · intro rejected
    rw [if_neg rejected, raise_read _ hm hp]
    exact congrArg _ (abortResend_eq_frameResent (s := s.emit _) hm)

/-- Settles O14: a 1 is `Finalize`, a 0 the ERR and `AbortResend`. -/
theorem readStopSlot_holds : Obligations.ReadStopSlot := by
  intro s hm hp
  have stop (d : Level) : exec (.rdStop d) s = .next (if d then finalize s else abortResend (s.raise .invalidStopBit)) :=
    atSlot_read (readStopSlot d) hm hp
  constructor
  · rw [stop, if_pos rfl, finalize_eq]
    rfl
  · rw [stop, if_neg Bool.false_ne_true, raise_read _ hm hp]
    exact congrArg _ (abortResend_eq_frameResent (s := s.emit _) hm)

/-! ### Where bytes come from (R158, 60_exceptions.md R271) -/

/-- The outputs that hand a byte to the consumer. -/
def Output.isDelivery : Output → Bool
  | .rx _ | .cb _ => true
  | .done _ | .err _ _ _ | .result _ => false

/-- The deliveries among the outputs so far. -/
def State.deliveries (s : State) : List Output := s.outs.filter Output.isDelivery

/-- The deliveries among the new outputs are the new deliveries. -/
theorem mem_drop_outs_iff {o : Output} (h : s.Extends t) (ho : o.isDelivery = true) :
    o ∈ t.outs.drop s.outs.length ↔ o ∈ t.deliveries.drop s.deliveries.length := by
  obtain ⟨new, outs⟩ := h.outs
  simp [State.deliveries, ← outs, ho]

theorem deliveries_emit {o : Output} (s : State) (ho : o.isDelivery = false) : (s.emit o).deliveries = s.deliveries := by
  simp [State.deliveries, ho]

theorem deliveries_emit_of_isDelivery {o : Output} (s : State) (ho : o.isDelivery = true) :
    (s.emit o).deliveries = s.deliveries ++ [o] := by
  simp [State.deliveries, ho]

theorem deliveries_raise (k : ErrorKind) (s : State) : (s.raise k).deliveries = s.deliveries := deliveries_emit s rfl

theorem deliveries_admitWrite (b : Byte) (s : State) : (admitWrite b s).deliveries = s.deliveries := by
  rw [admitWrite_eq]
  rfl

theorem deliveries_initiateWrite (b : Byte) (s : State) : (initiateWrite b s).1.deliveries = s.deliveries := by
  cases hm : s.mode with
  | read =>
    rw [initiateWrite_read b hm]
    exact deliveries_admitWrite b s
  | write =>
    rw [initiateWrite_write b hm]
    exact deliveries_raise .busy s

theorem deliveries_abortResend (hm : s.mode = .read) : (abortResend s).deliveries = s.deliveries := by
  rw [abortResend_read hm]
  split
  · exact deliveries_admitWrite _ s
  · split
    · exact deliveries_admitWrite _ _
    · rfl

theorem deliveries_abortResend_raise (k : ErrorKind) (hm : s.mode = .read) :
    (abortResend (s.raise k)).deliveries = s.deliveries :=
  (deliveries_abortResend (s := s.raise k) hm).trans (deliveries_raise k s)

theorem deliveries_alloc (s : State) : (alloc s).2.deliveries = s.deliveries := by
  obtain ⟨ds, n, h⟩ := alloc_frame s
  rw [h]
  rfl

theorem deliveries_queueAdd (b : Byte) (s : State) : (queueAdd b s).deliveries = s.deliveries := by
  have first : (alloc s).2.deliveries = s.deliveries := deliveries_alloc s
  have second : (alloc (flush (alloc s).2)).2.deliveries = s.deliveries := (deliveries_alloc _).trans first
  simp only [queueAdd]
  split
  · exact first
  · split
    · exact second
    · exact (deliveries_raise _ _).trans second

/-- A delivered byte goes to the callback as an output, or to the queue without one (44_host_boundary.md R233). -/
theorem deliveries_deliver (b : Byte) (s : State) :
    (deliver b s).deliveries = s.deliveries ++ if s.cb = .present ∧ s.cbEnabled = true then [.cb b] else [] := by
  unfold deliver
  split
  · exact deliveries_emit_of_isDelivery s rfl
  · rw [deliveries_queueAdd, List.append_nil]

theorem deliveries_finalize (s : State) : (finalize s).deliveries =
    s.deliveries ++ .rx s.rdAcc :: if s.cb = .present ∧ s.cbEnabled = true then [.cb s.rdAcc] else [] := by
  rw [finalize_eq, deliveries_deliver, List.append_cons s.deliveries]
  exact congrArg (· ++ _) (deliveries_emit_of_isDelivery s rfl)

theorem deliveries_finish (c : Completion) (s : State) : (finish c s).deliveries = s.deliveries :=
  deliveries_emit (o := .done c) _ rfl

theorem deliveries_readStartSlot (d : Level) (s : State) : (readStartSlot d s).deliveries = s.deliveries := by
  rw [readStartSlot_eq]
  split
  · exact deliveries_raise .invalidStartBit s
  · rfl

theorem deliveries_readParitySlot (d : Level) (hm : s.mode = .read) : (readParitySlot d s).deliveries = s.deliveries := by
  rw [readParitySlot_eq]
  split
  · rfl
  · exact deliveries_abortResend_raise _ hm

theorem deliveries_readTimeout (hm : s.mode = .read) : (readTimeout s).deliveries = s.deliveries := by
  rw [readTimeout_eq]
  split
  · exact deliveries_raise .timeout s
  · exact deliveries_abortResend_raise _ hm

theorem deliveries_writeAckSlot (d : Level) (s : State) : (writeAckSlot d s).deliveries = s.deliveries := by
  rw [writeAckSlot_eq]
  split
  · exact (deliveries_finish _ _).trans (deliveries_raise .ackFailure s)
  · exact deliveries_finish _ s

theorem deliveries_execHCollect (hx : execHCollect s = .next t) : t.deliveries = s.deliveries := by
  unfold execHCollect at hx
  split at hx <;> cases hx <;> exact deliveries_emit _ rfl

theorem deliveries_execHConfigure {p : Bool} (hx : execHConfigure p s = .next t) : t.deliveries = s.deliveries := by
  unfold execHConfigure at hx
  split at hx <;> cases hx
  · exact deliveries_emit _ rfl
  · exact (deliveries_emit _ rfl).trans (deliveries_raise .invalidArgument s)

theorem deliveries_execHRead (hx : execHRead s = .next t) : t.deliveries = s.deliveries := by
  unfold execHRead at hx
  split at hx <;> cases hx <;> exact deliveries_emit _ rfl

/-- What an operation can do to the deliveries: nothing, or, as an accepting Stop slot, add those of the accumulator. -/
inductive DeliveryStep (i : Instr) (s t : State) : Prop where
  | silent (deliveries : t.deliveries = s.deliveries)
  | accepted (stop : i = .rdStop true) (mode : s.mode = .read) (rdPos : s.rdPos = 10#4) (next : t = finalize s)

theorem DeliveryStep.of_atSlot {i : Instr} {m : Mode} {k : Slot} {f : State → State} (hx : atSlot m k f s = .next t)
    (hf : s.mode = m → (f s).deliveries = s.deliveries) : DeliveryStep i s t := by
  obtain ⟨⟨hm, -⟩, rfl⟩ := atSlot_eq_next.mp hx
  exact .silent (hf hm)

theorem execRdStop_deliveryStep (hx : execRdStop d s = .next t) : DeliveryStep (.rdStop d) s t := by
  obtain ⟨⟨hm, hp⟩, rfl⟩ := atSlot_eq_next.mp hx
  rw [readStopSlot_eq]
  cases d with
  | true => exact .accepted rfl hm (s.pc_of_read hm ▸ hp) rfl
  | false => exact .silent (deliveries_abortResend_raise _ hm)

theorem exec_deliveryStep {i : Instr} (hi : singleEvent i = true) (hx : exec i s = .next t) : DeliveryStep i s t := by
  cases i with
  | rdStart d => exact .of_atSlot hx fun _ => deliveries_readStartSlot d s
  | rdData1 d | rdData2 d | rdData3 d | rdData4 d | rdData5 d | rdData6 d | rdData7 d | rdData8 d =>
    exact .of_atSlot hx fun _ => rfl
  | rdParity d => exact .of_atSlot hx (deliveries_readParitySlot d)
  | rdStop d => exact execRdStop_deliveryStep hx
  | wrStart d => exact .of_atSlot (f := fun s => s.cancel .write) hx fun _ => rfl
  | wrData1 d | wrData2 d | wrData3 d | wrData4 d | wrData5 d | wrData6 d | wrData7 d | wrData8 d | wrParity d | wrStop d =>
    exact .of_atSlot hx fun _ => rfl
  | wrAck d => exact .of_atSlot hx fun _ => deliveries_writeAckSlot d s
  | toRead =>
    obtain ⟨-, hm, rfl⟩ := execToRead_eq_next.mp hx
    exact .silent (deliveries_readTimeout hm)
  | toWrite =>
    obtain ⟨-, -, rfl⟩ := execToWrite_eq_next.mp hx
    exact .silent ((deliveries_finish _ _).trans (deliveries_raise .timeout (s.setDeadline .write none)))
  | toInhibit =>
    obtain ⟨-, -, rfl⟩ := execToInhibit_eq_next.mp hx
    exact .silent rfl
  | hWrite b =>
    cases hx
    exact .silent ((deliveries_emit _ rfl).trans (deliveries_initiateWrite b s))
  | hCollect => exact .silent (deliveries_execHCollect hx)
  | hConfigure p => exact .silent (deliveries_execHConfigure hx)
  | hEnableCb | hDisableCb =>
    cases hx
    exact .silent rfl
  | hRead => exact .silent (deliveries_execHRead hx)
  | reset | tick c d => cases hi

/-- Settles O51: only an accepting Stop slot adds a delivery, and what it adds carries the accumulator. -/
theorem bytesComeOnlyFromAcceptedStops : Obligations.BytesComeOnlyFromAcceptedStops := by
  intro i s t b hi hx new
  have grown := exec_extends_of_singleEvent hi hx
  rw [mem_drop_outs_iff grown rfl, mem_drop_outs_iff grown rfl] at new
  cases exec_deliveryStep hi hx with
  | silent deliveries => simp [deliveries] at new
  | accepted stop mode rdPos next =>
    refine ⟨stop, mode, rdPos, ?_⟩
    rw [next, deliveries_finalize, List.drop_left] at new
    split at new
    · simpa using new
    · simpa using new

/-! ### A whole frame (R158) -/

/-- A run of a machine is its first step and the run from there. -/
theorem coreRun_succ_of_step (M : Host.Core) {s t : M.State} (n : Nat) (hx : M.step s = .next t) : M.run (n + 1) s = M.run n t := by
  rw [Host.Core.run, hx]

theorem run_succ_of_step (n : Nat) (hx : step s = .next t) : Host.Core.run core (n + 1) s = Host.Core.run core n t :=
  coreRun_succ_of_step core n hx

/-- A step on the event `E d` in Read mode, where slot `k` is the current one and `f` what its operation does. -/
theorem step_readEdge {i : Instr} {k : Slot} {f : State → State} {rest : List Event}
    (he : s.events = TraceLine.event (.E d) :: rest) (hm : s.mode = .read) (hp : s.rdPos = k)
    (hi : edgeInstr .read k d = .ok i) (hx : ∀ s, exec i s = atSlot .read k f s) :
    step s = .next (f { s with events := rest, portHost := none, portReset := false }) := by
  have selected : edgeInstr s.mode s.pc ((bitOperand d).getLsbD 0) = .ok i := by
    rw [bitOperand_bit, s.pc_of_read hm, hm, hp, hi]
  rw [step_of_edge he rfl selected, hx]
  exact atSlot_read f hm hp

/-- The operation of slot `j + 1` stores bit `j` (30_encoding.md R100). -/
theorem edgeInstr_readData {j : Nat} (hj : j < 8) (d : Level) : ∃ i, edgeInstr .read (BitVec.ofNat 4 (j + 1)) d = .ok i ∧
    ∀ s, exec i s = atSlot .read (BitVec.ofNat 4 (j + 1)) (readDataSlot j d) s := by
  interval_cases j <;> exact ⟨_, rfl, fun _ => rfl⟩

/-- The lowest `k` bits of a byte, the others 0: the accumulator once `k` data bits are read. -/
def lowBits (b : Byte) (k : Nat) : Byte := (b.setWidth k).setWidth 8

theorem lowBits_zero (b : Byte) : lowBits b 0 = 0x00#8 := by
  apply BitVec.eq_of_getLsbD_eq
  simp [lowBits]

theorem lowBits_eight (b : Byte) : lowBits b 8 = b := by simp [lowBits]

theorem insertBit_lowBits (b : Byte) {k : Nat} (hk : k < 8) : insertBit (lowBits b k) k (bitOf b k) = lowBits b (k + 1) := by
  apply BitVec.eq_of_getLsbD_eq
  intro i hi
  rw [insertBit_getLsbD _ _ _ _ hk hi]
  by_cases same : i = k
  · simp [same, lowBits, bitOf, hk]
  · have below : i < k + 1 ↔ i < k := by omega
    simp [same, lowBits, below]

/-- `s` within a frame: the next edge is that of slot `k`, the data bits read so far are in `acc`, `es` are the events to come. -/
def State.receiving (acc : Byte) (k : Slot) (es : List Event) (s : State) : State :=
  { s with rdAcc := acc, rdPos := k, dlRead := some s.par.tReadBit, events := es, portHost := none, portReset := false }

/-- The edges of the `n` data bits of `b` from bit `k` on. -/
def dataEdges (b : Byte) (k n : Nat) : List Event := (List.range' k n).map fun j => TraceLine.event (.E (bitOf b j))

theorem dataEdges_succ (b : Byte) (k n : Nat) : dataEdges b k (n + 1) = TraceLine.event (.E (bitOf b k)) :: dataEdges b (k + 1) n := by
  rw [dataEdges, List.range'_succ]
  rfl

theorem rxFrame_events (b : Byte) : (rxFrame b).map TraceLine.event = TraceLine.event (.E false) ::
    (dataEdges b 0 8 ++ [TraceLine.event (.E (wireParity b)), TraceLine.event (.E true)]) := by
  simp [rxFrame, dataEdges, List.range_eq_range']

theorem step_startEdge {es : List Event} (h : Reading s) (hp : s.rdPos = 0#4)
    (he : s.events = TraceLine.event (.E false) :: es) : step s = .next (s.receiving 0x00#8 1#4 es) := by
  rw [step_readEdge (f := readStartSlot false) he h.mode hp rfl fun _ => rfl, readStartSlot_eq, if_neg Bool.false_ne_true,
    readEpilogue_eq, State.receiving, ← h.accClear hp, hp]
  rfl

theorem step_dataEdge (b : Byte) {k : Nat} (es : List Event) (hm : s.mode = .read) (hk : k < 8) :
    step (s.receiving (lowBits b k) (BitVec.ofNat 4 (k + 1)) (TraceLine.event (.E (bitOf b k)) :: es)) =
      .next (s.receiving (lowBits b (k + 1)) (BitVec.ofNat 4 (k + 1 + 1)) es) := by
  obtain ⟨i, hi, hx⟩ := edgeInstr_readData hk (bitOf b k)
  refine (step_readEdge (s := s.receiving _ (BitVec.ofNat 4 (k + 1)) _) rfl hm rfl hi hx).trans ?_
  simp only [readDataSlot_eq, State.receiving, insertBit_lowBits b hk, BitVec.ofNat_add (k + 1) 1]

/-- The edges of the data bits that are left complete the byte in the accumulator. -/
theorem run_dataEdges (b : Byte) (es : List Event) (m : Nat) (hm : s.mode = .read) (n k : Nat) (hk : k + n = 8) :
    Host.Core.run core (n + m) (s.receiving (lowBits b k) (BitVec.ofNat 4 (k + 1)) (dataEdges b k n ++ es)) =
      Host.Core.run core m (s.receiving b 9#4 es) := by
  induction n generalizing k with
  | zero =>
    obtain rfl : k = 8 := hk
    rw [Nat.zero_add, lowBits_eight]
    rfl
  | succ n ih =>
    have first := step_dataEdge b (dataEdges b (k + 1) n ++ es) hm (show k < 8 by omega)
    rw [Nat.succ_add, dataEdges_succ, List.cons_append]
    exact (run_succ_of_step _ first).trans (ih (k + 1) (by omega))

theorem step_parityEdge (b : Byte) (es : List Event) (hm : s.mode = .read) :
    step (s.receiving b 9#4 (TraceLine.event (.E (wireParity b)) :: es)) = .next (s.receiving b 10#4 es) := by
  rw [step_readEdge (s := s.receiving _ _ _) (f := readParitySlot (wireParity b)) rfl hm rfl rfl fun _ => rfl, readParitySlot_eq]
  exact congrArg _ (if_pos rfl)

/-- The Stop edge hands the byte on and leaves the read side as it was at rest. -/
theorem step_stopEdge (b : Byte) (es : List Event) (h : Reading s) (hp : s.rdPos = 0#4) :
    step (s.receiving b 10#4 (TraceLine.event (.E true) :: es)) = .next (deliver b
      { s with
        events := es, portHost := none, portReset := false
        resendCnt := if s.par.resendMax = none then s.resendCnt else 0, outs := s.outs ++ [.rx b] }) := by
  rw [step_readEdge (s := s.receiving _ _ _) (f := readStopSlot true) rfl h.mode rfl rfl fun _ => rfl, readStopSlot_eq, if_pos rfl,
    finalize_eq]
  conv_rhs => rw [← h.readReset_eq_self hp]
  rfl

/-- Settles O56: the Start edge, the eight data edges, the Parity edge and the Stop edge of the frame, one after the other. -/
theorem readRoundTrip : Obligations.ReadRoundTrip := by
  intro s b rest inv hm hp he
  have h : Reading s := inv.reading hm
  rw [rxFrame_events, List.cons_append, List.append_assoc] at he
  have start := step_startEdge h hp he
  rw [← lowBits_zero b] at start
  calc Host.Core.run core 11 s
    _ = Host.Core.run core (8 + 2) _ := run_succ_of_step 10 start
    _ = Host.Core.run core 2 _ := run_dataEdges b _ 2 hm 8 0 rfl
    _ = Host.Core.run core 1 _ := run_succ_of_step 1 (step_parityEdge b _ hm)
    _ = Host.Core.run core 0 _ := run_succ_of_step 0 (step_stopEdge b rest h hp)

end Sys2Proof.Machine
end

section
/-! SUPPORT. Proofs of the statements of 42_write_frame.md: `H.WRITE` and the end of the hold (R170, R171, R176), the operation of each
write slot (R178 to R190), and the round trip of a whole frame (R192). -/

namespace Sys2Proof.Machine

variable {s : State} {d : Level}

/-! ### The start of a write (R170, R171, R176) -/

/-- An ERR raised in Write mode at slot `k`. -/
theorem raise_write {k : Slot} (e : ErrorKind) (hm : s.mode = .write) (hp : s.wrPos = k) : s.raise e = s.emit (.err e .write k) := by
  rw [State.raise_eq, s.pc_of_write hm, hm, hp]

/-- Settles O18: the admission check looks at `mode` alone; the refusal's ERR comes before its result. -/
theorem hostWriteAdmittedOrBusy : Obligations.HostWriteAdmittedOrBusy := by
  intro s b
  have write : exec (.hWrite b) s = .next ((initiateWrite b s).1.emit (.result (initiateWrite b s).2)) := rfl
  constructor
  · intro hm
    rw [write, initiateWrite_read b hm, ← writeAdmitted_eq]
    rfl
  · intro hm
    refine ⟨_, .inl rfl, ?_⟩
    rw [write, initiateWrite_write b hm, raise_write .busy hm rfl, List.append_cons]
    rfl

/-- Settles O19: not armed, armed in the hold and armed outside it are the three branches of `TO.INHIBIT`. -/
theorem inhibitionEnds : Obligations.InhibitionEnds := by
  intro s
  have expiry : exec .toInhibit s = _ := execToInhibit_eq s
  refine ⟨fun n armed hm hp => ?_, fun n armed outside => ?_, fun disarmed => ?_⟩
  · rw [expiry, if_neg (by simp [armed]), if_pos ⟨hm, hp⟩, releaseClock_eq]
  · rw [expiry, if_neg (by simp [armed]), if_neg outside]
  · rw [expiry, if_pos disarmed]

/-! ### The operation of each slot (R178 to R190) -/

/-- A write operation at its own slot runs. -/
theorem atSlot_write {k : Slot} (f : State → State) (hm : s.mode = .write) (hp : s.wrPos = k) : atSlot .write k f s = .next (f s) :=
  atSlot_enabled hm ((s.pc_of_write hm).trans hp)

theorem writeDataSlot_eq (j : Nat) (s : State) : writeDataSlot j s =
    { s with sdaOut := s.wrByte.getLsbD j, wrPos := s.wrPos + 1#4, dlWrite := some s.par.tWriteBit } := rfl

/-- The operation that drives bit `j` at slot `j + 1` drives it as its rule says. -/
theorem drivesDataBit_of_exec {op : Level → Instr} {j : Nat}
    (hx : ∀ d s, exec (op d) s = atSlot .write (BitVec.ofNat 4 (j + 1)) (writeDataSlot j) s) : DrivesDataBit op (j + 1) := by
  intro s d hm hp
  rw [hx, atSlot_write _ hm hp, writeDataSlot_eq, hp, ← BitVec.ofNat_add, Nat.add_sub_cancel]

/-- Settles O20: slot `j + 1` drives bit `j`. -/
theorem writeDataSlots : Obligations.WriteDataSlots :=
  ⟨drivesDataBit_of_exec (j := 0) fun _ _ => rfl, drivesDataBit_of_exec (j := 1) fun _ _ => rfl,
    drivesDataBit_of_exec (j := 2) fun _ _ => rfl, drivesDataBit_of_exec (j := 3) fun _ _ => rfl,
    drivesDataBit_of_exec (j := 4) fun _ _ => rfl, drivesDataBit_of_exec (j := 5) fun _ _ => rfl,
    drivesDataBit_of_exec (j := 6) fun _ _ => rfl, drivesDataBit_of_exec (j := 7) fun _ _ => rfl⟩

/-- Settles O21: each operation runs at its slot; the parity bit it drives is the wire parity of the byte. -/
theorem writeStartParityStopSlots : Obligations.WriteStartParityStopSlots := by
  intro s d hm
  refine ⟨fun hp => ?_, fun hp => ?_, fun hp => ?_⟩
  · exact atSlot_write (fun s => s.cancel .write) hm hp
  · have parity : exec (.wrParity d) s = .next (writeDriveSlot (wireParity s.wrByte) s) :=
      atSlot_write (fun s => writeDriveSlot (wireParity s.wrByte) s) hm hp
    rw [parity, writeDriveSlot_eq, evenParityBit_eq_wireParity, hp]
    rfl
  · have stop : exec (.wrStop d) s = .next (writeStopSlot s) := atSlot_write writeStopSlot hm hp
    rw [stop, writeStopSlot_eq, hp]
    rfl

theorem finish_eq_writeFinished (c : Completion) (s : State) : finish c s = writeFinished c s := by cases c <;> rfl

/-- Settles O22: both levels end in `Finish`, a 1 after the ERR. -/
theorem writeAckFinishes : Obligations.WriteAckFinishes := by
  intro s hm hp
  have ack (d : Level) : exec (.wrAck d) s = .next (if d then finish .failure (s.raise .ackFailure) else finish .success s) :=
    atSlot_write (writeAckSlot d) hm hp
  constructor
  · rw [ack, if_neg Bool.false_ne_true, finish_eq_writeFinished]
  · rw [ack, if_pos rfl, finish_eq_writeFinished, raise_write .ackFailure hm hp]
    rfl

/-! ### A whole frame (R192) -/

theorem readFrameWord_start (b : Byte) : (readFrameWord b).getLsbD 0 = false := by simp [readFrameWord]

theorem readFrameWord_data (b : Byte) {j : Nat} (hj : j < 8) : (readFrameWord b).getLsbD (j + 1) = b.getLsbD j := by
  interval_cases j <;> simp [readFrameWord]

theorem readFrameWord_parity (b : Byte) : (readFrameWord b).getLsbD 9 = wireParity b := by simp [readFrameWord]

theorem readFrameWord_stop (b : Byte) : (readFrameWord b).getLsbD 10 = true := by simp [readFrameWord]

/-- What the write edge of slot `k` does, for Data1 to Stop: drive bit `k` of `RF(wr_byte)`, at Stop by releasing SDA, and go on. -/
def transmitSlot (k : Nat) (s : State) : State :=
  { s with
    sdaOut := (readFrameWord s.wrByte).getLsbD k, sdaDir := if k < 10 then s.sdaDir else .input
    wrPos := s.wrPos + 1#4, dlWrite := some s.par.tWriteBit }

theorem transmitSlot_data {j : Nat} (hj : j < 8) : transmitSlot (j + 1) = writeDataSlot j := by
  funext s
  rw [transmitSlot, readFrameWord_data _ hj, if_pos (by omega), writeDataSlot_eq]

theorem transmitSlot_parity : transmitSlot 9 = fun s => writeDriveSlot (wireParity s.wrByte) s := by
  funext s
  rw [transmitSlot, readFrameWord_parity, if_pos (by decide), writeDriveSlot_eq]

theorem transmitSlot_stop : transmitSlot 10 = writeStopSlot := by
  funext s
  rw [transmitSlot, readFrameWord_stop, if_neg (by decide), writeStopSlot_eq]

/-- The operation of each slot from Data1 to Stop drives that slot's bit of the frame word (30_encoding.md R93, R100). -/
theorem edgeInstr_transmit {k : Nat} (hk : k < 10) (d : Level) : ∃ i, edgeInstr .write (BitVec.ofNat 4 (k + 1)) d = .ok i ∧
    ∀ s, exec i s = atSlot .write (BitVec.ofNat 4 (k + 1)) (transmitSlot (k + 1)) s := by
  obtain data | rfl | rfl : k < 8 ∨ k = 8 ∨ k = 9 := by omega
  · rw [transmitSlot_data data]
    interval_cases k <;> exact ⟨_, rfl, fun _ => rfl⟩
  · rw [transmitSlot_parity]
    exact ⟨_, rfl, fun _ => rfl⟩
  · rw [transmitSlot_stop]
    exact ⟨_, rfl, fun _ => rfl⟩

/-- `s` within a write of `b` that the device clocks: bit `k` of `RF(b)` is on SDA, the next edge is that of slot `k + 1`, `es` are the
events to come. -/
def State.transmitting (b : Byte) (k : Nat) (es : List Event) (s : State) : State :=
  { s with
    mode := .write, wrByte := b, wrPos := BitVec.ofNat 4 (k + 1), wrStatus := .active, lock := false, sclOut := true
    sdaOut := (readFrameWord b).getLsbD k, sdaDir := if k < 10 then .output else .input
    dlWrite := some (if k = 0 then s.par.tWriteFirst else s.par.tWriteBit)
    events := es, portHost := none, portReset := false, outs := s.outs ++ [.result .accepted] }

theorem transmitting_drive_sda (b : Byte) {k : Nat} (es : List Event) (hk : k ≤ 10) :
    (s.transmitting b k es).drive .sda = (readFrameWord b).getLsbD k := by
  have drive : (s.transmitting b k es).drive .sda =
      driveLevel (if k < 10 then .output else .input) ((readFrameWord b).getLsbD k) := rfl
  rw [drive]
  obtain driven | rfl : k < 10 ∨ k = 10 := by omega
  · rw [if_pos driven, driveLevel]
  · rw [if_neg (by decide), driveLevel, readFrameWord_stop]

theorem step_hostWrite {b : Byte} {es : List Event} (hm : s.mode = .read) (he : s.events = TraceLine.event (.W b) :: es) :
    step s = .next { writeAdmitted b s with
      events := es, portHost := none, portReset := false, outs := s.outs ++ [.result .accepted] } := by
  have write : decodeWord (formWord (TraceLine.event (.W b)) s) = .ok (.hWrite b) := by
    simp [formWord, decodeWord, TraceLine.event]
  obtain ⟨admitted, -⟩ := hostWriteAdmittedOrBusy (loadEvent (TraceLine.event (.W b)) es s) b
  exact (step_of_decodeWord_ok he write).trans (admitted hm)

theorem step_inhibitExpiry {es : List Event} {n : Nat} (armed : s.dlInhibit = some n) (hm : s.mode = .write) (hp : s.wrPos = 0#4)
    (he : s.events = TraceLine.event .TI :: es) : step s = .next { s with
      dlInhibit := none, irqEn := true, sdaOut := false, wrPos := 1#4, sclOut := true, sclDir := .input
      dlWrite := some s.par.tWriteFirst, events := es, portHost := none, portReset := false } := by
  have expiry : decodeWord (formWord (TraceLine.event .TI) s) = .ok .toInhibit := by
    simp [formWord, decodeWord, TraceLine.event]
  obtain ⟨ends, -, -⟩ := inhibitionEnds (loadEvent (TraceLine.event .TI) es s)
  exact (step_of_decodeWord_ok he expiry).trans (ends n armed hm hp)

/-- A run of a machine with one step more. -/
theorem coreRun_snoc (M : Host.Core) {s t u : M.State} {n : Nat} (hr : M.run n s = .next t) (hx : M.step t = .next u) :
    M.run (n + 1) s = .next u := by
  induction n generalizing s with
  | zero =>
    cases hr
    exact coreRun_succ_of_step M 0 hx
  | succ n ih =>
    cases hs : M.step s with
    | next v =>
      rw [coreRun_succ_of_step M n hs] at hr
      rw [coreRun_succ_of_step M (n + 1) hs]
      exact ih hr
    | fault f => simp [Host.Core.run, hs] at hr
    | refused f => simp [Host.Core.run, hs] at hr

theorem run_snoc {t u : State} {n : Nat} (hr : Host.Core.run core n s = .next t) (hx : step t = .next u) :
    Host.Core.run core (n + 1) s = .next u :=
  coreRun_snoc core hr hx

/-- From idle, `W b` and the expiry of the hold put the start bit on SDA; the read side and the clock's line are as they were. -/
theorem run_startBit {b : Byte} {es : List Event} (h : Reading s) (hp : s.rdPos = 0#4)
    (he : s.events = TraceLine.event (.W b) :: TraceLine.event .TI :: es) :
    Host.Core.run core 2 s = .next (s.transmitting b 0 es) := by
  have read_at_rest : s.dlRead = none := not_not.mp fun armed => h.guard.mp armed hp
  have held := run_succ_of_step 0 (step_hostWrite h.mode he)
  refine (run_snoc held (step_inhibitExpiry rfl rfl rfl rfl)).trans ?_
  rw [State.transmitting, readFrameWord_start]
  simp [writeAdmitted, hp, h.accClear hp, read_at_rest, h.dlInhibit, h.irqEn, h.sclDir]

/-- A step on the event `E d` in Write mode, where slot `k` is the current one and `i` its operation. -/
theorem step_writeEdge {i : Instr} {k : Slot} {rest : List Event} (he : s.events = TraceLine.event (.E d) :: rest)
    (hm : s.mode = .write) (hp : s.wrPos = k) (hi : edgeInstr .write k d = .ok i) :
    step s = exec i { s with events := rest, portHost := none, portReset := false } := by
  have selected : edgeInstr s.mode s.pc ((bitOperand d).getLsbD 0) = .ok i := by
    rw [bitOperand_bit, s.pc_of_write hm, hm, hp, hi]
  rw [step_of_edge he rfl selected]
  rfl

/-- Every edge before Ack puts the next bit of the frame word on SDA. -/
theorem step_transmitting (b : Byte) {k : Nat} (es : List Event) (hk : k < 10) :
    step (s.transmitting b k (TraceLine.event (.E d) :: es)) = .next (s.transmitting b (k + 1) es) := by
  obtain ⟨i, hi, hx⟩ := edgeInstr_transmit hk d
  rw [step_writeEdge (s := s.transmitting b k _) rfl rfl rfl hi, hx]
  refine (atSlot_write (k := BitVec.ofNat 4 (k + 1)) (transmitSlot (k + 1)) rfl rfl).trans ?_
  simp [transmitSlot, State.transmitting, hk, BitVec.ofNat_add (k + 1) 1]

theorem txClk_events (b : Byte) (a : Level) : (TraceLine.W b :: txClk a).map TraceLine.event =
    TraceLine.event (.W b) :: TraceLine.event .TI :: (List.replicate 10 (TraceLine.event (.E true)) ++ [TraceLine.event (.E a)]) := by
  simp [txClk]

/-- After `W b`, the expiry of the hold and `k` edges, bit `k` of the frame word is on SDA. -/
theorem run_transmitting {b : Byte} {es : List Event} (h : Reading s) (hp : s.rdPos = 0#4)
    (he : s.events = TraceLine.event (.W b) :: TraceLine.event .TI :: (List.replicate 10 (TraceLine.event (.E true)) ++ es))
    {k : Nat} (hk : k ≤ 10) : Host.Core.run core (k + 2) s =
      .next (s.transmitting b k (List.replicate (10 - k) (TraceLine.event (.E true)) ++ es)) := by
  induction k with
  | zero => exact run_startBit h hp he
  | succ k ih =>
    have left : 10 - k = 10 - (k + 1) + 1 := by omega
    have before := ih (by omega)
    rw [left, List.replicate_succ, List.cons_append] at before
    exact run_snoc before (step_transmitting b _ (by omega))

/-- `Finish` leaves the bus idle, as it was before the write (R190). -/
theorem finish_transmitting (b : Byte) (c : Completion) (es : List Event) (os : List Output) (h : Reading s) (hp : s.rdPos = 0#4) :
    writeFinished c { s.transmitting b 10 es with outs := os } = { s with
      wrByte := b, wrStatus := completionStatus c, lock := true, sclOut := true, sdaOut := true
      events := es, portHost := none, portReset := false, outs := os ++ [.done c] } := by
  rw [← finish_eq_writeFinished, finish_eq, State.transmitting, readFrameWord_stop]
  simp [h.mode, hp, h.wrPos, h.dlWrite, h.sclDir, h.sdaDir]

/-- The Ack edge finishes the write, a 1 after the ERR (R189). -/
theorem step_ackEdge (b : Byte) (a : Level) (es : List Event) (h : Reading s) (hp : s.rdPos = 0#4) :
    step (s.transmitting b 10 (TraceLine.event (.E a) :: es)) = .next { s with
      wrByte := b, wrStatus := (if a then .failure else .success), lock := true, sclOut := true, sdaOut := true
      events := es, portHost := none, portReset := false
      outs := s.outs ++ [.result .accepted] ++
        (if a then [.err .ackFailure .write 11#4, .done .failure] else [.done .success]) } := by
  obtain ⟨success, failure⟩ := writeAckFinishes (s.transmitting b 10 es) rfl rfl
  rw [step_writeEdge (s := s.transmitting b 10 _) (i := .wrAck a) rfl rfl rfl rfl]
  cases a with
  | false => exact success.trans (congrArg _ (finish_transmitting b .success es _ h hp))
  | true =>
    rw [if_pos rfl, if_pos rfl, List.append_cons _ (Output.err .ackFailure .write 11#4)]
    exact failure.trans (congrArg _ (finish_transmitting b .failure es _ h hp))

/-- Settles O57: the edges of `TXCLK a` put the bits of the frame word on SDA one after the other, and the last one samples the Ack. -/
theorem writeRoundTrip : Obligations.WriteRoundTrip := by
  intro s b a rest inv hm hp he
  have h : Reading s := inv.reading hm
  rw [txClk_events, List.cons_append, List.cons_append, List.append_assoc] at he
  refine ⟨?_, fun k hk => ⟨_, run_transmitting h hp he hk, transmitting_drive_sda b _ hk⟩⟩
  exact run_snoc (run_transmitting h hp he (k := 10) le_rfl) (step_ackEdge b a rest h hp)

end Sys2Proof.Machine
end

section
/-! SUPPORT. Proofs of the statements of 43_timeouts.md: the two timeout operations (R213, R214), the tie of an edge and its deadline
(R217), and the bounds that the deadlines put on a write and on a read frame (R219). -/

namespace Sys2Proof.Machine

variable {s t u : State} {c d : Level} {i : Instr}

/-! ### The timeout operations (R213, R214) -/

/-- Settles O23: not armed, armed in Write mode and armed in Read mode are the three branches of `TO.READ`, the last split at the
window. -/
theorem readTimeoutEscalates : Obligations.ReadTimeoutEscalates := by
  intro s
  have expiry : exec .toRead s = _ := execToRead_eq s
  refine ⟨fun n armed hm => ?_, fun n armed hm => ?_, fun disarmed => ?_⟩
  · rw [expiry, if_neg (by simp [armed]), if_pos hm, readTimeout_eq, raise_read .timeout hm rfl]
    constructor
    · intro early
      rw [if_pos early]
      rfl
    · intro late
      rw [if_neg (by omega)]
      exact congrArg _ (abortResend_eq_frameResent (s := s.emit _) hm)
  · rw [expiry, if_neg (by simp [armed]), if_neg (by simp [hm])]
  · rw [expiry, if_pos disarmed]

/-- Settles O24: not armed, armed in Read mode and armed in Write mode are the three branches of `TO.WRITE`. -/
theorem writeTimeoutFinishes : Obligations.WriteTimeoutFinishes := by
  intro s
  have expiry : exec .toWrite s = _ := execToWrite_eq s
  refine ⟨fun n armed hm => ?_, fun n armed hm => ?_, fun disarmed => ?_⟩
  · rw [expiry, if_neg (by simp [armed]), if_pos hm, finish_eq_writeFinished, raise_write .timeout hm rfl]
    rfl
  · rw [expiry, if_neg (by simp [armed]), if_neg (by simp [hm])]
  · rw [expiry, if_pos disarmed]

/-! ### What an edge can do (41_read_frame.md R141 to R151, 42_write_frame.md R178 to R189) -/

/-- What an edge in Read mode can do: go on to the next slot, drop the frame at Start, abort with resend, or deliver the byte. No error it
reports is `Timeout`. -/
inductive ReadEdge (s t : State) : Prop where
  | accepted (acc : Byte) (below : s.rdPos.toNat < 10)
      (next : t = { s with rdAcc := acc, rdPos := s.rdPos + 1#4, dlRead := some s.par.tReadBit })
  | dropped (next : t = readReset (s.raise .invalidStartBit))
  | resent (k : ErrorKind) (error : k ≠ .timeout) (mode : s.mode = .read) (next : t = abortResend (s.raise k))
  | delivered (next : t = finalize s)

/-- What an edge in Write mode can do: in the hold cancel a deadline; drive the slot's level and go on; or, at Ack, finish the write. -/
inductive WriteEdge (s t : State) : Prop where
  | held (slot : s.wrPos = 0#4) (next : t = { s with dlWrite := none })
  | driven (k : Nat) (start : s.wrPos ≠ 0#4) (below : s.wrPos.toNat < 11) (next : t = transmitSlot k s)
  | acknowledged (next : t = finish .success s)
  | unacknowledged (next : t = finish .failure (s.raise .ackFailure))

theorem readEdge_of_atSlot {k : Slot} {f : State → State} (hx : atSlot .read k f s = .next t)
    (hf : s.mode = .read → s.rdPos = k → ReadEdge s (f s)) : ReadEdge s t := by
  obtain ⟨⟨hm, hk⟩, rfl⟩ := atSlot_eq_next.mp hx
  exact hf hm (s.pc_of_read hm ▸ hk)

theorem writeEdge_of_atSlot {k : Slot} {f : State → State} (hx : atSlot .write k f s = .next t)
    (hf : s.wrPos = k → WriteEdge s (f s)) : WriteEdge s t := by
  obtain ⟨⟨hm, hk⟩, rfl⟩ := atSlot_eq_next.mp hx
  exact hf (s.pc_of_write hm ▸ hk)

theorem readEdge_readStartSlot (d : Level) (hp : s.rdPos = 0#4) : ReadEdge s (readStartSlot d s) := by
  rw [readStartSlot_eq]
  split
  · exact .dropped rfl
  · exact .accepted s.rdAcc (by simp [hp]) rfl

theorem readEdge_readParitySlot (d : Level) (hm : s.mode = .read) (hp : s.rdPos = 9#4) : ReadEdge s (readParitySlot d s) := by
  rw [readParitySlot_eq]
  split
  · exact .accepted s.rdAcc (by simp [hp]) rfl
  · exact .resent _ (by decide) hm rfl

theorem readEdge_readStopSlot (d : Level) (hm : s.mode = .read) : ReadEdge s (readStopSlot d s) := by
  rw [readStopSlot_eq]
  split
  · exact .delivered rfl
  · exact .resent _ (by decide) hm rfl

theorem writeEdge_writeAckSlot (d : Level) (s : State) : WriteEdge s (writeAckSlot d s) := by
  rw [writeAckSlot_eq]
  split
  · exact .unacknowledged rfl
  · exact .acknowledged rfl

theorem readEdge_of_exec {k : Slot} (hi : edgeInstr .read k d = .ok i) (hx : exec i s = .next t) : ReadEdge s t := by
  obtain ⟨p, hp, rfl⟩ := exists_lt_eq_ofNat k
  obtain rfl | ⟨first, last⟩ | rfl | rfl | past : p = 0 ∨ (0 < p ∧ p < 9) ∨ p = 9 ∨ p = 10 ∨ 11 ≤ p := by omega
  · cases hi
    exact readEdge_of_atSlot hx fun _ => readEdge_readStartSlot d
  · obtain ⟨j, rfl⟩ := Nat.exists_eq_add_one.mpr first
    obtain ⟨i', hi', run⟩ := edgeInstr_readData (j := j) (by omega) d
    cases hi.symm.trans hi'
    rw [run] at hx
    refine readEdge_of_atSlot hx fun _ slot => .accepted _ ?_ (readDataSlot_eq j d s)
    rw [slot, BitVec.toNat_ofNat]
    omega
  · cases hi
    exact readEdge_of_atSlot hx (readEdge_readParitySlot d)
  · cases hi
    exact readEdge_of_atSlot hx fun hm _ => readEdge_readStopSlot d hm
  · have reserved : edgeInstr .read (BitVec.ofNat 4 p) d = .error .reservedReadSlot :=
      edgeInstr_eq_error_iff.mpr (.inl ⟨rfl, by simp; omega, rfl⟩)
    simp [reserved] at hi

theorem writeEdge_of_exec {k : Slot} (hi : edgeInstr .write k d = .ok i) (hx : exec i s = .next t) : WriteEdge s t := by
  obtain ⟨p, hp, rfl⟩ := exists_lt_eq_ofNat k
  obtain rfl | ⟨first, last⟩ | rfl | past : p = 0 ∨ (0 < p ∧ p < 11) ∨ p = 11 ∨ 12 ≤ p := by omega
  · cases hi
    exact writeEdge_of_atSlot (f := fun s => s.cancel .write) hx fun slot => .held slot rfl
  · obtain ⟨j, rfl⟩ := Nat.exists_eq_add_one.mpr first
    obtain ⟨i', hi', run⟩ := edgeInstr_transmit (k := j) (by omega) d
    cases hi.symm.trans hi'
    rw [run] at hx
    refine writeEdge_of_atSlot hx fun slot => .driven (j + 1) ?_ ?_ rfl
    · rw [slot]
      bv_omega
    · rw [slot, BitVec.toNat_ofNat]
      omega
  · cases hi
    exact writeEdge_of_atSlot hx fun _ => writeEdge_writeAckSlot d s
  · have reserved : edgeInstr .write (BitVec.ofNat 4 p) d = .error .reservedWriteSlot :=
      edgeInstr_eq_error_iff.mpr (.inr ⟨rfl, by simp; omega, rfl⟩)
    simp [reserved] at hi

/-! ### The tie of an edge and its deadline (R217) -/

theorem noTimeout_of_outs {os : List Output} (ho : t.outs = s.outs ++ os) (hos : ∀ m p, Output.err .timeout m p ∉ os) :
    NoTimeout s t := by
  intro m p
  rw [ho, List.drop_left]
  exact hos m p

theorem alloc_outs (s : State) : (alloc s).2.outs = s.outs := by
  obtain ⟨ds, n, h⟩ := alloc_frame s
  rw [h]

/-- The one error a delivery can report is a failed allocation (44_host_boundary.md R233, R237). -/
theorem deliver_outs (b : Byte) (s : State) :
    ∃ os, (deliver b s).outs = s.outs ++ os ∧ ∀ o ∈ os, o = .cb b ∨ ∃ m p, o = .err .allocationFailure m p := by
  have purged : (alloc (flush (alloc s).2)).2.outs = s.outs := (alloc_outs _).trans (alloc_outs s)
  unfold deliver
  split
  · exact ⟨[.cb b], rfl, by simp⟩
  · simp only [queueAdd]
    split
    · exact ⟨[], by simp [alloc_outs], by simp⟩
    · split
      · exact ⟨[], by simp [purged], by simp⟩
      · exact ⟨[.err .allocationFailure _ _], by rw [State.raise, State.emit_outs, purged], by simp⟩

theorem noTimeout_deliver {b : Byte} (h : u.outs = s.outs ++ [.rx b]) : NoTimeout s (deliver b u) := by
  obtain ⟨os, ho, hos⟩ := deliver_outs b u
  refine noTimeout_of_outs (os := .rx b :: os) (by rw [ho, h, ← List.append_cons]) fun m p new => ?_
  obtain same | new := List.mem_cons.mp new
  · cases same
  · simpa using hos _ new

theorem noTimeout_finalize (s : State) : NoTimeout s (finalize s) := by
  rw [finalize_eq]
  exact noTimeout_deliver rfl

theorem abortResend_outs (hm : s.mode = .read) : (abortResend s).outs = s.outs := by
  rw [abortResend_read hm]
  split
  · rw [admitWrite_eq]
  · split
    · rw [admitWrite_eq]
    · rfl

theorem noTimeout_raise {k : ErrorKind} (error : k ≠ .timeout) (ho : t.outs = (s.raise k).outs) : NoTimeout s t :=
  noTimeout_of_outs ho (by simp [error.symm])

theorem ReadEdge.noTimeout (h : ReadEdge s t) : NoTimeout s t := by
  cases h with
  | accepted acc below next => exact noTimeout_of_outs (os := []) (by simp [next]) (by simp)
  | dropped next => exact noTimeout_raise (k := .invalidStartBit) (by decide) (by rw [next, readReset_eq])
  | resent k error mode next =>
    exact noTimeout_raise error (by rw [next, abortResend_outs (s := s.raise k) mode])
  | delivered next => exact next ▸ noTimeout_finalize s

theorem WriteEdge.noTimeout (h : WriteEdge s t) : NoTimeout s t := by
  cases h with
  | held slot next => exact noTimeout_of_outs (os := []) (by simp [next]) (by simp)
  | driven k start below next => exact noTimeout_of_outs (os := []) (by simp [next, transmitSlot]) (by simp)
  | acknowledged next => exact noTimeout_of_outs (os := [.done .success]) (by rw [next, finish_eq]) (by simp)
  | unacknowledged next =>
    exact noTimeout_of_outs (os := [.err .ackFailure s.mode s.pc, .done .failure]) (by simp [next, finish_eq]) (by simp)

theorem pending_deliver (b : Byte) (h : DeadlinesPending s) : DeadlinesPending (deliver b s) := by
  obtain ⟨q, ds, n, os, delivered⟩ := deliver_frame b s
  rw [delivered]
  exact h

/-- An edge in Read mode re-arms, cancels or hands over to the hold the deadline it is guarded by. -/
theorem ReadEdge.pending (h : ReadEdge s t) (hw : s.dlWrite ≠ some 0) (hi : s.dlInhibit ≠ some 0)
    (hp : s.par.deadlinesPositive = true) : DeadlinesPending t := by
  obtain ⟨bit, -, -, inhibit⟩ := deadlinesPositive_iff.mp hp
  cases h with
  | accepted acc below next =>
    rw [next]
    exact ⟨by simp [bit.ne'], hw, hi⟩
  | dropped next => exact next ▸ pending_readReset hw hi
  | resent k error mode next => exact next ▸ pending_abortResend (s := s.raise k) mode hw hi inhibit
  | delivered next =>
    rw [next, finalize_eq]
    exact pending_deliver _ ⟨nofun, hw, hi⟩

/-- An edge in Write mode re-arms or cancels the deadline it is guarded by. -/
theorem WriteEdge.pending (h : WriteEdge s t) (hr : s.dlRead ≠ some 0) (hi : s.dlInhibit ≠ some 0)
    (hp : s.par.deadlinesPositive = true) : DeadlinesPending t := by
  obtain ⟨-, bit, -, -⟩ := deadlinesPositive_iff.mp hp
  cases h with
  | held slot next => exact next ▸ ⟨hr, nofun, hi⟩
  | driven k start below next => exact next ▸ ⟨hr, by simp [transmitSlot, bit.ne'], hi⟩
  | acknowledged next => exact next ▸ ⟨hr, nofun, hi⟩
  | unacknowledged next => exact next ▸ ⟨hr, nofun, hi⟩

/-- An edge whose operation leaves no deadline due and reports no `Timeout` is all that its tick does. -/
theorem edge_wins (hr : s.portReset = false) (hp : s.portHost = none) (he : EdgeSeen s c)
    (hi : edgeInstr s.mode s.pc (sdaLevel s d) = .ok i)
    (edge : ∀ u, exec i (sampled s c) = .next u → DeadlinesPending u ∧ NoTimeout (sampled s c) u) :
    ∃ t, exec (.tick c d) s = .next t ∧ exec i (sampled s c) = .next t ∧ NoTimeout s t := by
  obtain ⟨completing, -⟩ := edgeOperationsOnlyWhereSelected s.mode s.pc (sdaLevel s d) i (sampled s c) hi
  obtain ⟨u, hu⟩ := completing ⟨rfl, rfl⟩
  obtain ⟨⟨r0, w0, i0⟩, quiet⟩ := edge u hu
  exact ⟨u, tickHandlesTheEdge s u c d i hr hp he hi hu r0 w0 i0, hu, quiet⟩

theorem tick_readData (hr : s.portReset = false) (hp : s.portHost = none) (he : EdgeSeen s c) (hm : s.mode = .read) {j : Nat} (hj : j < 8)
    (slot : s.rdPos = BitVec.ofNat 4 (j + 1)) (hw : s.dlWrite = none) (hi : s.dlInhibit = none) (bit : 0 < s.par.tReadBit) :
    exec (.tick c d) s = .next (readDataSlot j (sdaLevel s d) (sampled s c)) := by
  obtain ⟨i, selected, run⟩ := edgeInstr_readData hj (sdaLevel s d)
  refine tickHandlesTheEdge s _ c d i hr hp he ?_ ((run _).trans (atSlot_read _ hm slot)) ?_ ?_ ?_
  · rw [s.pc_of_read hm, hm, slot, selected]
  · simp [readDataSlot_eq, sampled, bit.ne']
  · simp [readDataSlot_eq, sampled, hw]
  · simp [readDataSlot_eq, sampled, hi]

/-- Settles O39: the operation of the edge cancels the deadline or starts it again above 0, so phase 4 finds none due. -/
theorem edgeWinsTheTie : Obligations.EdgeWinsTheTie := by
  intro s c d hr hp he hi
  refine ⟨fun hm first last _ hw bit => ?_, fun i positive hm _ hw selected => ?_, fun i positive hm _ hd selected => ?_⟩
  · obtain ⟨j, hj⟩ := Nat.exists_eq_add_one.mpr first
    have slot : s.rdPos = BitVec.ofNat 4 (j + 1) := by rw [← hj, BitVec.ofNat_toNat, BitVec.setWidth_eq]
    have ⟨_, low, _⟩ := he
    refine ⟨insertBit s.rdAcc j (sdaLevel s d), ?_, fun i hi => ?_⟩
    · rw [tick_readData hr hp he hm (by omega) slot hw hi bit]
      simp [readDataSlot_eq, sampled, hw, hi, low]
    · rw [insertBit_getLsbD _ _ _ _ (by omega) hi, hj]
      simp only [Nat.add_right_cancel_iff]
  · have ok : edgeInstr .read s.rdPos (sdaLevel s d) = .ok i := edgeInstr_read_eq_ok_iff.mpr selected
    refine edge_wins hr hp he (by rw [s.pc_of_read hm, hm, ok]) fun u hu => ?_
    have edge : ReadEdge (sampled s c) u := readEdge_of_exec ok hu
    exact ⟨edge.pending (by simp [sampled, hw]) (by simp [sampled, hi]) positive, edge.noTimeout⟩
  · have ok : edgeInstr .write s.wrPos (sdaLevel s d) = .ok i := edgeInstr_write_eq_ok_iff.mpr selected
    refine edge_wins hr hp he (by rw [s.pc_of_write hm, hm, ok]) fun u hu => ?_
    have edge : WriteEdge (sampled s c) u := writeEdge_of_exec ok hu
    exact ⟨edge.pending (by simp [sampled, hd]) (by simp [sampled, hi]) positive, edge.noTimeout⟩

/-! ### What each phase of a tick can do to the counters (40_edge_dispatch.md R126) -/

/-- `t` has the mode, the positions, the deadlines and the parameters of `s`. -/
structure SameClock (s t : State) : Prop where
  mode : t.mode = s.mode
  rdPos : t.rdPos = s.rdPos
  wrPos : t.wrPos = s.wrPos
  dlRead : t.dlRead = s.dlRead
  dlWrite : t.dlWrite = s.dlWrite
  dlInhibit : t.dlInhibit = s.dlInhibit
  par : t.par = s.par

/-- What the host sees and is told is no part of the clock. -/
theorem SameClock.of_rfl {prev : Level} {st : WrStatus} {lock : Bool} {cb : Callback} {cbEnabled : Bool} {q : List Byte}
    {p : Option HostCmd} {os : List Output} : SameClock s { s with
      sclPrev := prev, wrStatus := st, lock := lock, cb := cb, cbEnabled := cbEnabled, queue := q, portHost := p, outs := os } :=
  ⟨rfl, rfl, rfl, rfl, rfl, rfl, rfl⟩

/-- A host command leaves the clock as it is, or starts a write from Read mode (42_write_frame.md R170). -/
theorem sameClock_or_of_runHost {cmd : HostCmd} (hx : runHost cmd s = .next t) : SameClock s t ∨ s.mode = .read ∧ t.rdPos = 0#4 := by
  cases cmd with
  | write b =>
    cases hx
    cases hm : s.mode with
    | read =>
      rw [initiateWrite_read b hm, admitWrite_eq]
      exact .inr ⟨rfl, rfl⟩
    | write =>
      rw [initiateWrite_write b hm]
      exact .inl .of_rfl
  | collect =>
    simp only [runHost, execHCollect] at hx
    split at hx <;> cases hx <;> exact .inl .of_rfl
  | configure p => cases p <;> cases hx <;> exact .inl .of_rfl
  | enableCb | disableCb =>
    cases hx
    exact .inl .of_rfl
  | read =>
    simp only [runHost, execHRead] at hx
    split at hx <;> cases hx <;> exact .inl .of_rfl

theorem sameClock_or_of_hostPhase (hx : hostPhase s = .next t) : SameClock s t ∨ s.mode = .read ∧ t.rdPos = 0#4 := by
  obtain ⟨-, rfl⟩ | ⟨cmd, -, hx⟩ := hostPhase_cases hx
  · exact .inl .of_rfl
  · obtain same | started := sameClock_or_of_runHost hx
    · exact .inl { same with }
    · exact .inr started

/-- Phases 2 and 3 record SCL, and then dispatch an edge or end (R120, R122). -/
theorem edgePhase_cases (hx : edgePhase c d s = .next t) :
    ∃ prev, t = { s with sclPrev := prev } ∨ ∃ e, dispatchEdge e { s with sclPrev := prev } = .next t := by
  refine ⟨s.lineRead .scl c, ?_⟩
  cases he : fallingEdge s.sclPrev (s.lineRead .scl c) && s.irqEn with
  | false =>
    rw [edgePhase_quiet c d he] at hx
    cases hx
    exact .inl rfl
  | true =>
    rw [edgePhase_edge c d he] at hx
    exact .inr ⟨_, hx⟩

theorem exec_of_dispatchEdge (hx : dispatchEdge d s = .next t) : ∃ i, edgeInstr s.mode s.pc d = .ok i ∧ exec i s = .next t := by
  rw [dispatchEdge_eq] at hx
  cases hi : edgeInstr s.mode s.pc d with
  | ok i =>
    rw [hi] at hx
    exact ⟨i, rfl, hx⟩
  | error r => rw [hi] at hx; cases hx

theorem readEdge_of_dispatchEdge (hm : s.mode = .read) (hx : dispatchEdge d s = .next t) : ReadEdge s t := by
  obtain ⟨i, hi, hx⟩ := exec_of_dispatchEdge hx
  exact readEdge_of_exec (hm ▸ hi) hx

theorem writeEdge_of_dispatchEdge (hm : s.mode = .write) (hx : dispatchEdge d s = .next t) : WriteEdge s t := by
  obtain ⟨i, hi, hx⟩ := exec_of_dispatchEdge hx
  exact writeEdge_of_exec (hm ▸ hi) hx

theorem countDown_getD_lt {o : Option Nat} (armed : o ≠ none) (pending : o ≠ some 0) : (countDown o).getD 0 < o.getD 0 := by
  match o with
  | none => exact absurd rfl armed
  | some 0 => exact absurd rfl pending
  | some (n + 1) => exact Nat.lt_succ_self n

theorem getD_zero_le {o : Option Nat} {b : Nat} (h : ∀ n, o = some n → n ≤ b) : o.getD 0 ≤ b := by
  cases o with
  | none => exact Nat.zero_le b
  | some n => exact h n rfl

/-! ### Runs of ticks that bring a bound down (R219) -/

/-- What every state between ticks has: the invariant, no deadline at 0, and parameters that arm none at 0. -/
structure Ticking (s : State) : Prop where
  inv : Inv s
  pending : DeadlinesPending s
  positive : s.par.deadlinesPositive = true

theorem Ticking.loadEvent (h : Ticking s) (e : Event) (rest : List Event) : Ticking (loadEvent e rest s) :=
  ⟨h.inv.of_unconstrained, h.pending, h.positive⟩

theorem Ticking.tick (h : Ticking s) (hx : exec (.tick c d) s = .next t) : Ticking t where
  inv := inv_exec h.inv hx
  pending := ticksLeaveNoDeadlineAtZero s t c d h.inv h.pending h.positive hx
  positive := (exec_extends hx).par ▸ h.positive

theorem step_of_tick {e : Event} {rest : List Event} (he : s.events = e :: rest) (hk : e.kind = 7#4) :
    ∃ c d, step s = exec (.tick c d) (loadEvent e rest s) := by
  refine ⟨e.operand.getLsbD 0, e.operand.getLsbD 1, step_of_decodeWord_ok he ?_⟩
  simp [decodeWord, formWord, hk]

/-- A phase that ends with its last tick at the latest: where every tick ends it or leaves one tick fewer, as many ticks as are left at
first end it. `within n` says that the phase is in progress with at most `n` ticks left. -/
theorem exists_run_of_within {within : Nat → State → Prop} {goal : State → Prop} (inv : ∀ n u, within n u → Inv u)
    (load : ∀ n u e rest, within n u → within n (loadEvent e rest u)) (never : ∀ u, ¬within 0 u)
    (tick : ∀ n u v c d, within (n + 1) u → u.portReset = false → exec (.tick c d) u = .next v → goal v ∨ within n v)
    (n : Nat) (s : State) (h : within n s) (len : n ≤ s.events.length) (only : TicksOnly (s.events.take n)) :
    ∃ k t, k ≤ n ∧ Host.Core.run core k s = .next t ∧ goal t := by
  induction n generalizing s with
  | zero => exact absurd h (never s)
  | succ n ih =>
    cases he : s.events with
    | nil => simp [he] at len
    | cons e rest =>
      rw [he, List.take_succ_cons] at only
      obtain ⟨kind, reset⟩ := only e List.mem_cons_self
      obtain ⟨c, d, run⟩ := step_of_tick he kind
      have loaded := load _ s e rest h
      obtain ⟨v, hv⟩ := tickAlwaysCompletes _ c d (inv _ _ loaded)
      have hx : step s = .next v := run.trans hv
      obtain ended | left := tick n _ v c d loaded reset hv
      · exact ⟨1, v, by omega, run_succ_of_step 0 hx, ended⟩
      · have events : v.events = rest := (exec_extends hv).events
        rw [he, List.length_cons, Nat.succ_le_succ_iff] at len
        obtain ⟨k, t, hk, hr, ended⟩ :=
          ih v left (by rwa [events]) (by rw [events]; exact fun x hx => only x (List.mem_cons_of_mem e hx))
        exact ⟨k + 1, t, by omega, (run_succ_of_step k hx).trans hr, ended⟩

/-! ### A read frame (R219) -/

/-- How many ticks a read frame in progress can last at most: what is left of its deadline, and a deadline for each slot to come. -/
def State.frameLeft (s : State) : Nat :=
  if s.rdPos = 0#4 then 0 else (10 - s.rdPos.toNat) * s.par.tReadBit + s.dlRead.getD 0

theorem frameLeft_le_of_start (hp : s.rdPos = 0#4) (n : Nat) : s.frameLeft ≤ n := (if_pos hp).trans_le (Nat.zero_le n)

theorem frameLeft_in_frame (hp : s.rdPos ≠ 0#4) : s.frameLeft = (10 - s.rdPos.toNat) * s.par.tReadBit + s.dlRead.getD 0 := if_neg hp

theorem SameClock.frameLeft (h : SameClock s t) : t.frameLeft = s.frameLeft := by
  rw [State.frameLeft, h.rdPos, h.par, h.dlRead, State.frameLeft]

theorem abortResend_rdPos (hm : s.mode = .read) : (abortResend s).rdPos = 0#4 := by
  rw [abortResend_read hm]
  split
  · rw [admitWrite_eq]
  · split
    · rw [admitWrite_eq]
    · rfl

theorem deliver_rdPos (b : Byte) (s : State) : (deliver b s).rdPos = s.rdPos := by
  obtain ⟨q, ds, n, os, h⟩ := deliver_frame b s
  rw [h]

theorem finalize_rdPos (s : State) : (finalize s).rdPos = 0#4 := by
  rw [finalize_eq]
  exact deliver_rdPos _ _

theorem readTimeout_rdPos (hm : s.mode = .read) : (readTimeout s).rdPos = 0#4 := by
  rw [readTimeout_eq]
  split
  · rfl
  · exact abortResend_rdPos hm

/-- Past Start, an accepted slot takes its deadline from those of the slots to come; anything else ends the frame. -/
theorem ReadEdge.frameLeft_le (h : ReadEdge s t) (hp : s.rdPos ≠ 0#4) : t.frameLeft ≤ s.frameLeft := by
  cases h with
  | accepted acc below next =>
    have moved : t.rdPos ≠ 0#4 := by rw [next]; bv_omega
    have pos : (s.rdPos + 1#4).toNat = s.rdPos.toNat + 1 := by bv_omega
    have slots : 10 - s.rdPos.toNat = 10 - (s.rdPos.toNat + 1) + 1 := by omega
    rw [frameLeft_in_frame moved, frameLeft_in_frame hp, slots, Nat.add_mul, Nat.one_mul, next]
    simp only [pos, Option.getD_some]
    omega
  | dropped next => exact next ▸ frameLeft_le_of_start rfl _
  | resent k error mode next => exact next ▸ frameLeft_le_of_start (abortResend_rdPos (s := s.raise k) mode) _
  | delivered next => exact next ▸ frameLeft_le_of_start (finalize_rdPos s) _

theorem frameLeft_edgePhase_le (hm : s.mode = .read) (hp : s.rdPos ≠ 0#4) (hx : edgePhase c d s = .next t) :
    t.frameLeft ≤ s.frameLeft := by
  obtain ⟨prev, rfl | ⟨e, hx⟩⟩ := edgePhase_cases hx
  · exact le_rfl
  · exact (readEdge_of_dispatchEdge (s := { s with sclPrev := prev }) hm hx).frameLeft_le hp

theorem frameLeft_deadlinePhase_le (hx : deadlinePhase s = .next t) : t.frameLeft ≤ s.frameLeft := by
  obtain ⟨-, hx⟩ | ⟨-, -, hx⟩ | ⟨-, -, -, hx⟩ | ⟨-, -, -, rfl⟩ := deadlinePhase_cases hx
  · obtain ⟨-, hm, rfl⟩ := execToRead_eq_next.mp hx
    exact frameLeft_le_of_start (readTimeout_rdPos hm) _
  · obtain ⟨-, -, rfl⟩ := execToWrite_eq_next.mp hx
    exact frameLeft_le_of_start rfl _
  · obtain ⟨-, -, rfl⟩ := execToInhibit_eq_next.mp hx
    exact le_rfl
  · exact le_rfl

theorem frameLeft_hostPhase_le (hx : hostPhase s = .next t) : t.frameLeft ≤ s.frameLeft := by
  obtain same | ⟨-, start⟩ := sameClock_or_of_hostPhase hx
  · exact same.frameLeft.le
  · exact frameLeft_le_of_start start _

theorem Ticking.reading (h : Ticking s) (hp : s.rdPos ≠ 0#4) : Reading s := by
  cases hm : s.mode with
  | read => exact h.inv.reading hm
  | write => exact absurd (h.inv.writing hm).rdPos hp

/-- Counting takes one tick off, since a frame in progress has its deadline armed above 0 (10_state.md R45). -/
theorem Ticking.frameLeft_countPhase_lt (h : Ticking s) (hp : s.rdPos ≠ 0#4) : (countPhase s).frameLeft < s.frameLeft := by
  obtain ⟨read, -, -⟩ := h.pending
  have counted := countDown_getD_lt ((h.reading hp).guard.mpr hp) read
  rw [frameLeft_in_frame (s := countPhase s) hp, frameLeft_in_frame hp]
  simp only [countPhase]
  omega

theorem frameLeft_tick_lt (h : Ticking s) (hp : s.rdPos ≠ 0#4) (hr : s.portReset = false) (hx : exec (.tick c d) s = .next t) :
    t.frameLeft < s.frameLeft := by
  obtain ⟨reset, -⟩ | ⟨-, u, v, hu, hv, ht⟩ := execTick_cases hx
  · simp [hr] at reset
  calc t.frameLeft
    _ ≤ v.frameLeft := frameLeft_hostPhase_le ht
    _ ≤ u.frameLeft := frameLeft_deadlinePhase_le hv
    _ ≤ (countPhase s).frameLeft := frameLeft_edgePhase_le (s := countPhase s) (h.reading hp).mode hp hu
    _ < s.frameLeft := h.frameLeft_countPhase_lt hp

/-- A read frame is in progress and ends within `n` ticks. -/
structure FrameWithin (n : Nat) (s : State) : Prop where
  ticking : Ticking s
  inFrame : s.rdPos ≠ 0#4
  left : s.frameLeft ≤ n

theorem FrameWithin.tick {n : Nat} (h : FrameWithin (n + 1) s) (hr : s.portReset = false) (hx : exec (.tick c d) s = .next t) :
    t.rdPos = 0#4 ∨ FrameWithin n t := by
  by_cases ended : t.rdPos = 0#4
  · exact .inl ended
  · have less := frameLeft_tick_lt h.ticking h.inFrame hr hx
    have left := h.left
    exact .inr ⟨h.ticking.tick hx, ended, by omega⟩

/-- From any slot past Start at most ten deadlines are to come (10_state.md R20: a counter is at most its start value). -/
theorem frameLeft_le (h : Reading s) (hp : s.rdPos ≠ 0#4) : s.frameLeft ≤ 10 * s.par.tReadBit := by
  have slots : 10 - s.rdPos.toNat ≤ 9 := by bv_omega
  have others := Nat.mul_le_mul_right s.par.tReadBit slots
  have counter := getD_zero_le h.counter
  rw [frameLeft_in_frame hp]
  omega

/-- Settles O60: every tick of a frame in progress takes one off `frameLeft`, at most 10 `T_READ_BIT` at first, or ends the frame. -/
theorem readFrameEndsInBoundedTime : Obligations.ReadFrameEndsInBoundedTime := by
  intro s inv pending positive hm hp len only
  refine exists_run_of_within (within := FrameWithin) (fun _ _ h => h.ticking.inv) (fun _ _ e rest h => ?_) (fun u h => ?_)
    (fun _ _ _ _ _ h => h.tick) _ s ?_ len only
  · exact ⟨h.ticking.loadEvent e rest, h.inFrame, h.left⟩
  · exact absurd (h.ticking.frameLeft_countPhase_lt h.inFrame) (by have := h.left; omega)
  · exact ⟨⟨inv, pending, positive⟩, hp, frameLeft_le (inv.reading hm) hp⟩

/-! ### A write (R219, 20_memory.md R77) -/

/-- How many ticks a write can last at most: what is left of the hold and its deadlines to come; or, once the device clocks it, what is
left of its deadline and a deadline for each slot to come. -/
def State.writeLeft (s : State) : Nat :=
  if s.wrPos = 0#4 then s.dlInhibit.getD 0 + s.par.tWriteFirst + 10 * s.par.tWriteBit
  else (11 - s.wrPos.toNat) * s.par.tWriteBit + s.dlWrite.getD 0

theorem writeLeft_in_hold (hp : s.wrPos = 0#4) :
    s.writeLeft = s.dlInhibit.getD 0 + s.par.tWriteFirst + 10 * s.par.tWriteBit := if_pos hp

theorem writeLeft_clocked (hp : s.wrPos ≠ 0#4) : s.writeLeft = (11 - s.wrPos.toNat) * s.par.tWriteBit + s.dlWrite.getD 0 := if_neg hp

theorem SameClock.writeLeft (h : SameClock s t) : t.writeLeft = s.writeLeft := by
  rw [State.writeLeft, h.wrPos, h.par, h.dlWrite, h.dlInhibit, State.writeLeft]

/-- A DONE stands among the outputs put out since `s`. -/
def DoneSince (s t : State) : Prop := ∃ c, Output.done c ∈ t.outs.drop s.outs.length

theorem doneSince_finish (k : Completion) (h : s.outs <+: u.outs) : DoneSince s (finish k u) := by
  obtain ⟨os, outs⟩ := h
  exact ⟨k, by simp [finish_eq, ← outs, List.append_assoc]⟩

theorem DoneSince.later (h : DoneSince s u) (later : u.outs <+: t.outs) : DoneSince s t := by
  obtain ⟨k, done⟩ := h
  exact ⟨k, (later.drop _).subset done⟩

theorem DoneSince.earlier (h : DoneSince u t) (earlier : s.outs <+: u.outs) : DoneSince s t := by
  obtain ⟨k, done⟩ := h
  exact ⟨k, (List.drop_subset_drop_left _ earlier.length_le) done⟩

/-- What can have become of a write in flight in `s`: it has put out its DONE, or it is still in flight with no more ticks left. -/
inductive WriteStep (s t : State) : Prop where
  | finished (done : DoneSince s t)
  | running (mode : t.mode = .write) (left : t.writeLeft ≤ s.writeLeft)

theorem WriteStep.trans (h : WriteStep s u) (su : s.outs <+: u.outs) (ut : u.outs <+: t.outs) (next : u.mode = .write → WriteStep u t) :
    WriteStep s t := by
  cases h with
  | finished done => exact .finished (done.later ut)
  | running mode left =>
    cases next mode with
    | finished done => exact .finished (done.earlier su)
    | running mode' left' => exact .running mode' (left'.trans left)

/-- An edge moves a clocked write on by a slot, whose deadline was to come, or finishes it. -/
theorem WriteEdge.writeStep (h : WriteEdge s t) (hm : s.mode = .write) : WriteStep s t := by
  cases h with
  | held slot next =>
    have kept : t.wrPos = 0#4 := by rw [next]; exact slot
    exact .running (next ▸ hm) (by rw [writeLeft_in_hold kept, writeLeft_in_hold slot, next])
  | driven k start below next =>
    have moved : s.wrPos + 1#4 ≠ 0#4 := by bv_omega
    have pos : (s.wrPos + 1#4).toNat = s.wrPos.toNat + 1 := by bv_omega
    have slots : 11 - s.wrPos.toNat = 11 - (s.wrPos.toNat + 1) + 1 := by omega
    refine .running (next ▸ hm) ?_
    rw [next, writeLeft_clocked (s := transmitSlot k s) moved, writeLeft_clocked start, slots, Nat.add_mul, Nat.one_mul]
    simp only [transmitSlot, pos, Option.getD_some]
    omega
  | acknowledged next => exact .finished (next ▸ doneSince_finish _ List.prefix_rfl)
  | unacknowledged next => exact .finished (next ▸ doneSince_finish _ (State.Extends.refl s |>.raise _).outs)

theorem writeStep_edgePhase (hm : s.mode = .write) (hx : edgePhase c d s = .next t) : WriteStep s t := by
  obtain ⟨prev, rfl | ⟨e, hx⟩⟩ := edgePhase_cases hx
  · exact .running hm le_rfl
  · cases (writeEdge_of_dispatchEdge (s := { s with sclPrev := prev }) hm hx).writeStep hm with
    | finished done => exact .finished done
    | running mode left => exact .running mode left

/-- The end of the hold starts the first of the deadlines to come (42_write_frame.md R176). -/
theorem writeLeft_releaseClock_le (hp : s.wrPos = 0#4) : (releaseClock s).writeLeft ≤ s.writeLeft := by
  have slots : 11 - (1#4).toNat = 10 := rfl
  rw [releaseClock_eq, writeLeft_in_hold hp, writeLeft_clocked (by simp)]
  simp only [slots, Option.getD_some]
  omega

theorem writeStep_deadlinePhase (hm : s.mode = .write) (hx : deadlinePhase s = .next t) : WriteStep s t := by
  obtain ⟨-, hx⟩ | ⟨-, -, hx⟩ | ⟨-, -, -, hx⟩ | ⟨-, -, -, rfl⟩ := deadlinePhase_cases hx
  · obtain ⟨-, reading, -⟩ := execToRead_eq_next.mp hx
    simp [hm] at reading
  · obtain ⟨-, -, rfl⟩ := execToWrite_eq_next.mp hx
    exact .finished (doneSince_finish _ ((setDeadline_extends .write none s).trans (.raise (.refl _) _)).outs)
  · obtain ⟨-, ⟨-, slot⟩, rfl⟩ := execToInhibit_eq_next.mp hx
    exact .running ((releaseClock_mode s).trans hm) (writeLeft_releaseClock_le slot)
  · exact .running hm le_rfl

theorem writeStep_hostPhase (hm : s.mode = .write) (hx : hostPhase s = .next t) : WriteStep s t := by
  obtain same | ⟨reading, -⟩ := sameClock_or_of_hostPhase hx
  · exact .running (same.mode.trans hm) same.writeLeft.le
  · simp [hm] at reading

/-- Counting takes one tick off, since a write has its deadline armed above 0 (10_state.md R47, R48). -/
theorem Ticking.writeLeft_countPhase_lt (h : Ticking s) (hm : s.mode = .write) : (countPhase s).writeLeft < s.writeLeft := by
  obtain ⟨-, write, inhibit⟩ := h.pending
  by_cases hp : s.wrPos = 0#4
  · have counted := countDown_getD_lt (h.inv.holding ⟨hm, hp⟩).armed inhibit
    rw [writeLeft_in_hold (s := countPhase s) hp, writeLeft_in_hold hp]
    simp only [countPhase]
    omega
  · have counted := countDown_getD_lt (h.inv.clocking hm hp).armed write
    rw [writeLeft_clocked (s := countPhase s) hp, writeLeft_clocked hp]
    simp only [countPhase]
    omega

theorem writeStep_tick (hm : s.mode = .write) (hr : s.portReset = false) (hx : exec (.tick c d) s = .next t) :
    WriteStep (countPhase s) t := by
  obtain ⟨reset, -⟩ | ⟨-, u, v, hu, hv, ht⟩ := execTick_cases hx
  · simp [hr] at reset
  have edge := (edgePhase_extends hu).outs
  have deadline := (deadlinePhase_extends hv).outs
  have host := (hostPhase_extends ht).outs
  refine (writeStep_edgePhase (s := countPhase s) hm hu).trans edge (deadline.trans host) fun hm => ?_
  exact (writeStep_deadlinePhase hm hv).trans deadline host fun hm => writeStep_hostPhase hm ht

/-- A write that was in flight in `s₀` still is and ends within `n` ticks. -/
structure WriteWithin (s₀ : State) (n : Nat) (s : State) : Prop where
  ticking : Ticking s
  mode : s.mode = .write
  outs : s₀.outs <+: s.outs
  left : s.writeLeft ≤ n

theorem WriteWithin.tick {s₀ : State} {n : Nat} (h : WriteWithin s₀ (n + 1) s) (hr : s.portReset = false)
    (hx : exec (.tick c d) s = .next t) : DoneSince s₀ t ∨ WriteWithin s₀ n t := by
  cases writeStep_tick h.mode hr hx with
  | finished done => exact .inl (done.earlier h.outs)
  | running mode left =>
    have counted := h.ticking.writeLeft_countPhase_lt h.mode
    have before := h.left
    exact .inr ⟨h.ticking.tick hx, mode, h.outs.trans (exec_extends hx).outs, by omega⟩

/-- Of a write at most the hold, the first deadline and ten others are to come (10_state.md R20: a counter is at most its start value). -/
theorem writeLeft_le (h : Inv s) (hm : s.mode = .write) :
    s.writeLeft ≤ s.par.tInhibit + s.par.tWriteFirst + 10 * s.par.tWriteBit := by
  by_cases hp : s.wrPos = 0#4
  · have counter := getD_zero_le (h.holding ⟨hm, hp⟩).counter
    rw [writeLeft_in_hold hp]
    omega
  · have counter := getD_zero_le (h.clocking hm hp).counter
    rw [writeLeft_clocked hp]
    split at counter
    case isTrue first =>
      have slots : 11 - s.wrPos.toNat ≤ 10 := by simp [first]
      have others := Nat.mul_le_mul_right s.par.tWriteBit slots
      omega
    case isFalse later =>
      have slots : 11 - s.wrPos.toNat ≤ 9 := by bv_omega
      have others := Nat.mul_le_mul_right s.par.tWriteBit slots
      omega

/-- Settles O59: every tick of a write in flight takes one off `writeLeft`, which is within the statement's bound at first, or puts
out DONE. -/
theorem writeFinishesInBoundedTime : Obligations.WriteFinishesInBoundedTime := by
  intro s inv pending positive hm len only
  refine exists_run_of_within (within := WriteWithin s) (goal := DoneSince s) (fun _ _ h => h.ticking.inv) (fun _ _ e rest h => ?_)
    (fun u h => ?_) (fun _ _ _ _ _ h => h.tick) _ s ?_ len only
  · exact ⟨h.ticking.loadEvent e rest, h.mode, h.outs, h.left⟩
  · exact absurd (h.ticking.writeLeft_countPhase_lt h.mode) (by have := h.left; omega)
  · exact ⟨⟨inv, pending, positive⟩, hm, List.prefix_rfl, writeLeft_le inv hm⟩

end Sys2Proof.Machine
end

section
/-! SUPPORT. Proofs of the statements of 44_host_boundary.md: where a byte goes (R233, R237), the host operations (R230 to R238), and the
composites `read` (R239) and `writeBlocking` (R231), each as what its ticks come to. -/

namespace Sys2Proof.Machine

variable {s t u : State} {b : Byte} {c d : Level} {x : Sample} {n : Nat}

/-! ### Delivery and the Byte Queue (R233, R237) -/

/-- Settles O16: the branches of `Deliver` are the callback and `QueueAdd`. -/
theorem deliveryGoesToOneDestination : Obligations.DeliveryGoesToOneDestination :=
  fun _ _ => ⟨fun h => if_pos h, fun h => if_neg h⟩

theorem allocsTaken_zero (s : State) : allocsTaken s 0 = s := by simp [allocsTaken]

/-- One draw more. -/
theorem allocsTaken_succ (s : State) (k : Nat) : allocsTaken (allocsTaken s k) 1 = allocsTaken s (k + 1) := by
  have free : s.allocCnt + (k - s.allocDraws.length) + (1 - (s.allocDraws.length - k)) =
      s.allocCnt + (k + 1 - s.allocDraws.length) := by omega
  simp only [allocsTaken, List.drop_drop, List.length_drop, free]

/-- The first draw after `k` of them is draw number `k`. -/
theorem allocOutcome_allocsTaken (s : State) (k : Nat) : allocOutcome (allocsTaken s k) 0 = allocOutcome s k := by
  simp [allocOutcome, allocsTaken]

/-- `Alloc()` at a finite QUEUE_CAP makes no draw (log entry 7). -/
theorem alloc_refused (h : s.par.queueCap = some s.queue.length) : alloc s = (false, allocsTaken s 0) := by
  rw [alloc_at_cap h, allocsTaken_zero]

/-- `Alloc()` on a queue whose length is not QUEUE_CAP draws the next outcome. -/
theorem alloc_drawn (h : s.par.queueCap ≠ some s.queue.length) : alloc s = (allocOutcome s 0, allocsTaken s 1) := by
  cases hd : s.allocDraws with
  | nil => simp [alloc, h, hd, allocOutcome, allocsTaken]
  | cons a rest => simp [alloc, h, hd, allocOutcome, allocsTaken]

theorem queueAdd_of_alloc_true (b : Byte) (h : alloc s = (true, t)) : queueAdd b s = { t with queue := t.queue ++ [b] } := by
  simp [queueAdd, h]

/-- The state in which `QueueAdd` drops a byte of `s` after `k` draws. -/
def byteDropped (s : State) (k : Nat) : State :=
  { allocsTaken s k with queue := [], outs := s.outs ++ [.err .allocationFailure s.mode s.pc] }

/-- A failed allocation purges the queue, and under any QUEUE_CAP but 0 the retry draws. -/
theorem queueAdd_retry (b : Byte) {k : Nat} (h : alloc s = (false, allocsTaken s k)) (cap : s.par.queueCap ≠ some 0) :
    queueAdd b s = if allocOutcome s k then { allocsTaken s (k + 1) with queue := [b] } else byteDropped s (k + 1) := by
  have retry : alloc (flush (allocsTaken s k)) = (allocOutcome s k, flush (allocsTaken s (k + 1))) := by
    rw [alloc_drawn (s := flush (allocsTaken s k)) cap, ← allocOutcome_allocsTaken s k, ← allocsTaken_succ s k]
    rfl
  simp only [queueAdd, h, retry, Bool.false_eq_true, if_false]
  rfl

/-- Under a QUEUE_CAP of 0 the retry fails without a draw. -/
theorem queueAdd_no_room (b : Byte) {k : Nat} (h : alloc s = (false, allocsTaken s k)) (cap : s.par.queueCap = some 0) :
    queueAdd b s = byteDropped s k := by
  have retry : alloc (flush (allocsTaken s k)) = (false, flush (allocsTaken s k)) := alloc_at_cap cap
  simp only [queueAdd, h, retry, Bool.false_eq_true, if_false]
  rfl

/-- Settles O17: at the cap the first allocation is refused, below it draw 0 decides; a failed one leaves the retry, which a cap of 0
refuses. -/
theorem queueAddPurgesAndRetriesOnce : Obligations.QueueAddPurgesAndRetriesOnce := by
  intro b s
  refine ⟨fun room cap => ?_, fun full filled => ?_, fun cap empty => ?_, fun cap filled => ?_⟩
  · have first := alloc_drawn room
    cases outcome : allocOutcome s 0 with
    | true => exact queueAdd_of_alloc_true b (outcome ▸ first)
    | false => exact queueAdd_retry b (k := 1) (outcome ▸ first) cap
  · have cap : s.par.queueCap ≠ some 0 := by simpa [full] using filled
    exact queueAdd_retry b (alloc_refused full) cap
  · have dropped := queueAdd_no_room b (alloc_refused (by simp [cap, empty])) cap
    rwa [byteDropped, allocsTaken_zero] at dropped
  · have first := alloc_drawn (s := s) (by simpa [cap, eq_comm (a := 0)] using filled)
    cases outcome : allocOutcome s 0 with
    | true => exact queueAdd_of_alloc_true b (outcome ▸ first)
    | false => exact queueAdd_no_room b (k := 1) (outcome ▸ first) cap

/-! ### The host operations (R230 to R238) -/

theorem exec_hCollect_of_lock (h : s.lock = true) : exec .hCollect s =
    .next { s with lock := false, wrStatus := .inactive, outs := s.outs ++ [.result (.status s.wrStatus)] } := if_pos h

theorem exec_hCollect_of_not_lock (h : s.lock = false) : exec .hCollect s = .next { s with outs := s.outs ++ [.result .blocked] } :=
  if_neg (by simp [h])

/-- Settles O25: either way the lock is taken after the first `H.COLLECT`, so the second blocks. -/
theorem collectTakesTheLock : Obligations.CollectTakesTheLock :=
  fun _ => ⟨exec_hCollect_of_lock, exec_hCollect_of_not_lock, fun _ first => exec_hCollect_of_not_lock (execHCollect_lock first)⟩

/-- Settles O26: with and without a callback are the branches of `H.CONFIGURE`; the ERR comes before the result. -/
theorem configureRegistersACallback : Obligations.ConfigureRegistersACallback := by
  intro s
  have failed : exec (.hConfigure false) s = .next ((s.raise .invalidArgument).emit (.result .invalidArgument)) := rfl
  refine ⟨rfl, _, .inl rfl, ?_⟩
  rw [failed, List.append_cons]
  rfl

/-- Settles O27: both operations are record updates, and the second of two disablings writes what the first has written. -/
theorem switchingDeliveryFlushes : Obligations.SwitchingDeliveryFlushes := by
  refine fun s => ⟨rfl, rfl, fun t first => ?_⟩
  cases first
  rfl

theorem execHRead_of_queue {rest : List Byte} (h : s.queue = b :: rest) :
    execHRead s = .next { s with queue := rest, outs := s.outs ++ [.result (.byte b)] } := by simp [execHRead, h, State.emit]

/-- Settles O28: an empty queue and one with a head are the branches of `H.READ`. -/
theorem readPopsTheQueue : Obligations.ReadPopsTheQueue :=
  fun s => ⟨fun empty => by simp [exec, execHRead, empty, State.emit], fun _ _ => execHRead_of_queue⟩

/-! ### The wait of `read` (R239) -/

theorem takeByte_of_queue {rest : List Byte} (h : s.queue = b :: rest) :
    takeByte b s = .returned (.byte b) { s with queue := rest, outs := s.outs ++ [.result (.byte b)] } := by
  simp [takeByte, execHRead_of_queue h]

theorem ticksPass_cons_eq_next {ys : List Sample} :
    ticksPass (x :: ys) s = .next u ↔ ∃ t, hostTick x none s = .next t ∧ ticksPass ys t = .next u := by
  have tick : exec (.tick x.scl x.sda) { s with portHost := none, portReset := x.reset } = hostTick x none s := rfl
  cases hx : hostTick x none s <;> simp [ticksPass, tick, hx]

/-- A tick that finds the queue empty takes one off the wait of `read`. -/
theorem waitRead_of_ticksPass {ys : List Sample} (xs : List Sample) (hu : ticksPass ys s = .next u)
    (empty : ∀ k v, k < ys.length → ticksPass (ys.take k) s = .next v → v.queue = []) :
    waitRead (ys.length + n) (ys ++ xs) s = waitRead n xs u := by
  induction ys generalizing s with
  | nil =>
    cases hu
    rw [List.length_nil, Nat.zero_add, List.nil_append]
  | cons y ys ih =>
    obtain ⟨t, ht, hu⟩ := ticksPass_cons_eq_next.mp hu
    have at_first : s.queue = [] := empty 0 s (Nat.zero_lt_succ _) rfl
    have later : ∀ k v, k < ys.length → ticksPass (ys.take k) t = .next v → v.queue = [] := fun k v hk hv =>
      empty (k + 1) v (Nat.succ_lt_succ hk) (ticksPass_cons_eq_next.mpr ⟨t, ht, hv⟩)
    rw [List.length_cons, Nat.succ_add, List.cons_append, waitRead_cons _ _ at_first ht, ih hu later]

/-- Settles O30: after the ticks `ys` the call is where it would be with `ys.length` less to wait. -/
theorem blockingReadReturnsTheFirstByte : Obligations.BlockingReadReturnsTheFirstByte := by
  intro s u ys hu len empty
  obtain ⟨n, left⟩ := Nat.exists_eq_add_of_le len
  have waited (xs : List Sample) : readBlocking (ys ++ xs) s = waitRead n xs u := by
    rw [readBlocking, left, waitRead_of_ticksPass xs hu empty]
  refine ⟨fun xs b rest head => ?_, fun xs none_left used => ?_, fun none_left waiting => ?_⟩
  · rw [waited, waitRead_of_queue n xs head, takeByte_of_queue head]
  · obtain rfl : n = 0 := by omega
    rw [waited, waitRead_zero xs none_left]
    rfl
  · obtain ⟨m, rfl⟩ : ∃ m, n = m + 1 := Nat.exists_eq_add_one.mpr (by omega)
    rw [← List.append_nil ys, waited, waitRead_nil m none_left]

/-- A tick of an idle block with SCL high leaves it as it is (40_edge_dispatch.md R126). -/
theorem hostTick_idle (h : Idle s) (prev : s.sclPrev = true) (hp : s.portHost = none) (hr : s.portReset = false)
    (high : x.scl = true) (hx : x.reset = false) : hostTick x none s = .next s := by
  obtain ⟨-, -, read, write, inhibit, scl, -⟩ := h
  have ports : { s with portHost := none, portReset := false } = s := by rw [← hp, ← hr]
  have level : sclLevel s x.scl = true := by simp [sclLevel, high, scl]
  have counted {o : Option Nat} (disarmed : o = none) : o.map (· - 1) = o := by rw [disarmed, Option.map_none]
  have same : sampled s x.scl = s := by rw [sampled, level, ← prev, counted read, counted write, counted inhibit]
  have quiet := quietTickOnlyCounts s x.scl x.sda hr hp (by simp [EdgeSeen, level]) (by simp [read]) (by simp [read])
    (by simp [write]) (by simp [write]) (by simp [inhibit]) (by simp [inhibit])
  rw [hostTick, hx, ports]
  exact quiet.trans (congrArg _ same)

theorem ticksPass_of_fixed {ys : List Sample} (h : ∀ y ∈ ys, hostTick y none s = .next s) : ticksPass ys s = .next s := by
  induction ys with
  | nil => rfl
  | cons y ys ih =>
    obtain ⟨first, others⟩ := List.forall_mem_cons.mp h
    exact ticksPass_cons_eq_next.mpr ⟨s, first, ih others⟩

/-- Settles O29: a head is taken before any tick; on a quiet bus the wait of `BlockingReadReturnsTheFirstByte` passes in the same state. -/
theorem blockingReadReturnsHeadOrTimesOut : Obligations.BlockingReadReturnsHeadOrTimesOut := by
  intro s
  refine ⟨fun xs b rest head => ?_, fun xs _ idle prev empty hp hr long quiet => ?_⟩
  · rw [readBlocking, waitRead_of_queue _ xs head, takeByte_of_queue head]
  · have fixed : ∀ y ∈ xs, hostTick y none s = .next s := fun y hy => hostTick_idle idle prev hp hr (quiet y hy).1 (quiet y hy).2
    have pass (k : Nat) : ticksPass (xs.take k) s = .next s := ticksPass_of_fixed fun y hy => fixed y (List.mem_of_mem_take hy)
    have len : (xs.take s.par.tBlockRead).length = s.par.tBlockRead := List.length_take_of_le long
    obtain ⟨-, timesOut, -⟩ := blockingReadReturnsTheFirstByte s s (xs.take s.par.tBlockRead) (pass _) len.le fun k v _ hv => by
      rw [List.take_take, pass] at hv
      cases hv
      exact empty
    rw [← List.take_append_drop s.par.tBlockRead xs]
    exact timesOut _ empty len

/-! ### A tick of `writeBlocking` (R231) -/

theorem bareTick_extends (hu : bareTick x s = .next u) : s.Extends u := by
  obtain ⟨par, events, outs⟩ := exec_extends hu
  exact ⟨par, events, outs⟩

/-- The command of a tick sees the tick's edge and deadline handled (40_edge_dispatch.md R126). -/
theorem hostTick_of_bareTick (cmd : HostCmd) (hr : x.reset = false) (hu : bareTick x s = .next u) :
    hostTick x (some cmd) s = exec cmd.toInstr u := by
  have bare : execTick x.scl x.sda { s with portHost := none, portReset := false } = .next u := hu
  have last := execTick_of_portHost_some (s := { s with portReset := false }) (c := x.scl) (d := x.sda) cmd rfl
  rw [hostTick, hr, last, bare, andThen_next]

/-- The answer of a tick's command is the tick's last output, whatever came before it. -/
theorem lastResult_of_answer {r : HostResult} {before : List Output} (hb : s.outs <+: before) (ht : t.outs = before ++ [.result r]) :
    lastResult s t = some r := by
  obtain ⟨os, outs⟩ := hb
  exact lastResult_of_outs (os := os) (by rw [ht, outs])

theorem writeBlocking_of_ne_busy {xs : List Sample} (b : Byte) (ht : hostTick x (some (.write b)) s = .next t)
    (answer : lastResult s t ≠ some .busy) (par : t.par = s.par) :
    writeBlocking b (x :: xs) s = waitWrite s.par.tBlockWrite xs t := by rw [writeBlocking_cons b x xs s t ht, if_neg answer, par]

/-- A status ends the wait (R231). -/
theorem waitWrite_of_status {st : WrStatus} (xs : List Sample) (ht : hostTick x (some .collect) s = .next t)
    (answer : lastResult s t = some (.status st)) :
    waitWrite (n + 1) (x :: xs) s = .returned (if st = .success then .success else .writeFailure) t := by
  cases st <;> simp [waitWrite, ht, answer]

/-- Anything else goes on waiting (R231). -/
theorem waitWrite_of_ne_status (xs : List Sample) (ht : hostTick x (some .collect) s = .next t)
    (answer : ∀ st, lastResult s t ≠ some (.status st)) : waitWrite (n + 1) (x :: xs) s = waitWrite n xs t := by
  simp only [waitWrite, ht]
  split <;> simp_all

theorem writeBlocking_accepted (b : Byte) (xs : List Sample) (hr : x.reset = false) (hu : bareTick x s = .next u) (hm : u.mode = .read) :
    writeBlocking b (x :: xs) s =
      waitWrite s.par.tBlockWrite xs { writeAdmitted b u with outs := u.outs ++ [.result .accepted] } := by
  obtain ⟨admitted, -⟩ := hostWriteAdmittedOrBusy u b
  refine writeBlocking_of_ne_busy b ((hostTick_of_bareTick _ hr hu).trans (admitted hm)) ?_ (bareTick_extends hu).par
  rw [lastResult_of_answer (bareTick_extends hu).outs rfl]
  decide

/-- A refused `H.WRITE` puts its ERR out before its result, which is the tick's last output (log entry 4). -/
theorem exec_hWrite_busy (b : Byte) (hm : s.mode = .write) :
    exec (.hWrite b) s = .next { s with outs := s.outs ++ [.err .busy .write s.wrPos, .result .busy] } := by
  have write : exec (.hWrite b) s = .next ((initiateWrite b s).1.emit (.result (initiateWrite b s).2)) := rfl
  rw [write, initiateWrite_write b hm, raise_write .busy hm rfl, List.append_cons]
  rfl

theorem writeBlocking_busy (b : Byte) (xs : List Sample) (hr : x.reset = false) (hu : bareTick x s = .next u) (hm : u.mode = .write) :
    writeBlocking b (x :: xs) s = .returned .busy { u with outs := u.outs ++ [.err .busy .write u.wrPos, .result .busy] } := by
  have ht := (hostTick_of_bareTick (.write b) hr hu).trans (exec_hWrite_busy b hm)
  have grown := (bareTick_extends hu).outs.trans (List.prefix_append _ [.err .busy .write u.wrPos])
  rw [writeBlocking_cons b x xs s _ ht, if_pos (lastResult_of_answer grown (List.append_cons _ _ _))]

theorem waitWrite_blocked (xs : List Sample) (hr : x.reset = false) (hu : bareTick x s = .next u) (hl : u.lock = false) :
    waitWrite (n + 1) (x :: xs) s = waitWrite n xs { u with outs := u.outs ++ [.result .blocked] } := by
  have ht := (hostTick_of_bareTick .collect hr hu).trans (exec_hCollect_of_not_lock hl)
  refine waitWrite_of_ne_status xs ht fun st => ?_
  rw [lastResult_of_answer (bareTick_extends hu).outs rfl]
  simp

theorem waitWrite_collected (xs : List Sample) (hr : x.reset = false) (hu : bareTick x s = .next u) (hl : u.lock = true) :
    waitWrite (n + 1) (x :: xs) s = .returned (if u.wrStatus = .success then .success else .writeFailure)
      { u with lock := false, wrStatus := .inactive, outs := u.outs ++ [.result (.status u.wrStatus)] } := by
  have ht := (hostTick_of_bareTick .collect hr hu).trans (exec_hCollect_of_lock hl)
  exact waitWrite_of_status xs ht (lastResult_of_answer (bareTick_extends hu).outs rfl)

/-- A tick with `reset` answers nothing, so the call waits (70_reset_and_hazards.md R300, R302). -/
theorem hostTick_reset_silent (cmd : HostCmd) (hr : x.reset = true)
    (hu : exec .reset { s with portHost := none, portReset := false } = .next u) :
    hostTick x (some cmd) s = .next u ∧ lastResult s u = none ∧ u.par = s.par := by
  cases hu
  exact ⟨hostTick_reset (some cmd) s hr, lastResult_of_outs_eq rfl, rfl⟩

/-- Settles O32: a tick without `reset` is its command on what the bare tick left, whose answer comes last; one with `reset` answers
nothing. -/
theorem blockingWriteFollowsItsTicks : Obligations.BlockingWriteFollowsItsTicks := by
  refine fun s x xs => ⟨fun u hr hu => ?_, fun u hr hu => ?_, rfl⟩
  · refine ⟨fun b => writeBlocking_accepted b xs hr hu, fun b hm => ?_, fun n => waitWrite_blocked xs hr hu,
      fun n => waitWrite_collected xs hr hu⟩
    exact ⟨_, .inl rfl, writeBlocking_busy b xs hr hu hm⟩
  · refine ⟨fun b => ?_, fun n => ?_⟩
    · obtain ⟨ht, silent, par⟩ := hostTick_reset_silent (.write b) hr hu
      exact writeBlocking_of_ne_busy b ht (by simp [silent]) par
    · obtain ⟨ht, silent, -⟩ := hostTick_reset_silent .collect hr hu
      exact waitWrite_of_ne_status xs ht (by simp [silent])

/-! ### A tick of a write in flight -/

/-- `t` has the write of `s` still in flight, and nothing put out since. -/
structure StillWriting (s t : State) : Prop where
  mode : t.mode = .write
  wrByte : t.wrByte = s.wrByte
  wrStatus : t.wrStatus = s.wrStatus
  lock : t.lock = s.lock
  outs : t.outs = s.outs

theorem tick_transmit {k : Nat} (hr : s.portReset = false) (hp : s.portHost = none) (he : EdgeSeen s c) (h : Clocking s) (hk : k < 10)
    (slot : s.wrPos = BitVec.ofNat 4 (k + 1)) (bit : 0 < s.par.tWriteBit) :
    exec (.tick c d) s = .next (transmitSlot (k + 1) (sampled s c)) := by
  obtain ⟨i, selected, run⟩ := edgeInstr_transmit hk (sdaLevel s d)
  refine tickHandlesTheEdge s _ c d i hr hp he ?_ ((run _).trans (atSlot_write _ h.mode slot)) ?_ ?_ ?_
  · rw [s.pc_of_write h.mode, h.mode, slot, selected]
  · simp [transmitSlot, sampled, h.dlRead]
  · simp [transmitSlot, sampled, bit.ne']
  · simp [transmitSlot, sampled, h.dlInhibit]

/-- Before its last slot an edge leaves a write in flight (42_write_frame.md R177); the hold sees none (40_edge_dispatch.md R122). -/
theorem stillWriting_tick_of_edgeSeen (hr : s.portReset = false) (hp : s.portHost = none) (h : Inv s) (hm : s.mode = .write)
    (he : EdgeSeen s c) (before : s.wrPos ≠ 11#4) (bit : 0 < s.par.tWriteBit) :
    ∃ u, exec (.tick c d) s = .next u ∧ StillWriting s u := by
  have ⟨_, _, enabled⟩ := he
  have clocked : s.wrPos ≠ 0#4 := by
    intro start
    simp [(h.holding ⟨hm, start⟩).irqEn] at enabled
  have clocking := h.clocking hm clocked
  have inFrame := clocking.inFrame
  obtain ⟨k, hk⟩ : ∃ k, s.wrPos.toNat = k + 1 := Nat.exists_eq_add_one.mpr (by bv_omega)
  have slot : s.wrPos = BitVec.ofNat 4 (k + 1) := by rw [← hk, BitVec.ofNat_toNat, BitVec.setWidth_eq]
  exact ⟨_, tick_transmit hr hp he clocking (by bv_omega) slot bit, hm, rfl, rfl, rfl, rfl⟩

/-- Phase 4 leaves a write in flight where `dl_write` is not due: the end of the hold goes on with it (42_write_frame.md R176). -/
theorem stillWriting_deadlinePhase (h : Inv s) (hm : s.mode = .write) (hw : s.dlWrite ≠ some 0) (hx : deadlinePhase s = .next t) :
    StillWriting s t := by
  obtain ⟨due, -⟩ | ⟨-, due, -⟩ | ⟨-, -, -, hx⟩ | ⟨-, -, -, rfl⟩ := deadlinePhase_cases hx
  · simp [(h.writing hm).dlRead] at due
  · exact absurd due hw
  · obtain ⟨-, -, rfl⟩ := execToInhibit_eq_next.mp hx
    rw [releaseClock_eq]
    exact ⟨hm, rfl, rfl, rfl, rfl⟩
  · exact ⟨hm, rfl, rfl, rfl, rfl⟩

theorem inv_sampled (h : Inv s) (c : Level) : Inv (sampled s c) := by
  rw [← countPhase_sampled]
  exact (inv_countPhase h).of_unconstrained

theorem stillWriting_tick_of_not_edgeSeen (hr : s.portReset = false) (hp : s.portHost = none) (h : Inv s) (hm : s.mode = .write)
    (he : ¬EdgeSeen s c) (w0 : s.dlWrite ≠ some 0) (w1 : s.dlWrite ≠ some 1) :
    ∃ u, exec (.tick c d) s = .next u ∧ StillWriting s u := by
  have counted := inv_sampled h c
  obtain ⟨u, hu⟩ := completes_deadlinePhase counted
  have still := stillWriting_deadlinePhase counted hm (mt map_pred_eq_some_zero_iff.mp (not_or.mpr ⟨w1, w0⟩)) hu
  exact ⟨u, (tick_of_not_edgeSeen hr hp he).trans hu, { still with }⟩

/-- Settles O31: the write is still in flight after the bare tick, so the `H.WRITE` of the call is refused. -/
theorem blockingWriteReturnsBusyAtOnce : Obligations.BlockingWriteReturnsBusyAtOnce := by
  intro s b x xs h hm hr
  refine ⟨fun positive before running => ?_, fun n slot hold hp hp' => ?_⟩
  · have bare : Inv { s with portHost := none, portReset := false } := h.of_unconstrained
    obtain ⟨-, bit, -, -⟩ := deadlinesPositive_iff.mp positive
    obtain ⟨u, hu, mode, wrByte, status, lock, outs⟩ :
        ∃ u, bareTick x s = .next u ∧ StillWriting { s with portHost := none, portReset := false } u := by
      by_cases he : EdgeSeen s x.scl
      · exact stillWriting_tick_of_edgeSeen rfl rfl bare hm he (fun last => before ⟨he, last⟩) bit
      · obtain ⟨w0, w1⟩ := running.resolve_left he
        exact stillWriting_tick_of_not_edgeSeen rfl rfl bare hm he w0 w1
    have returned := writeBlocking_busy b xs hr hu mode
    rw [outs] at returned
    exact ⟨u, _, hu, mode, wrByte, status.trans (h.writing hm).active, lock.trans (h.writing hm).lock, outs, .inl rfl, returned⟩
  · have bare : bareTick x s = exec (.tick x.scl x.sda) s := by rw [bareTick, ← hp, ← hp']
    have hu := bare.trans (edgesAreLostDuringTheHold s x.scl x.sda n h ⟨hm, slot⟩ hp' hp hold)
    refine ⟨_, .inl rfl, ?_⟩
    rw [writeBlocking_busy b xs hr hu hm]
    simp only [slot]

/-! ### The tick in which a write ends (60_exceptions.md R275) -/

theorem tick_of_wrAck {k : Completion} (hr : s.portReset = false) (hp : s.portHost = none) (hm : s.mode = .write) (slot : s.wrPos = 11#4)
    (he : EdgeSeen s c) (h : Clocking u) (run : exec (.wrAck (sdaLevel s d)) (sampled s c) = .next (finish k u)) :
    exec (.tick c d) s = .next (finish k u) := by
  obtain ⟨read, write, inhibit⟩ := pending_finish k h
  refine tickHandlesTheEdge s _ c d (.wrAck (sdaLevel s d)) hr hp he ?_ run read write inhibit
  rw [s.pc_of_write hm, hm, slot]
  rfl

/-- From Ack on the block has released SDA (42_write_frame.md R188). -/
theorem sdaLevel_at_ack (h : Clocking s) (slot : s.wrPos = 11#4) (d : Level) : sdaLevel s d = d := by
  have released : s.sdaDir ≠ .output := h.sdaDir.not.mpr (by simp [slot])
  simp [sdaLevel, released]

/-- The tick of the Ack edge finishes the write by the level the device puts on SDA (42_write_frame.md R189). -/
theorem tick_ack_finishes (d : Level) (hr : s.portReset = false) (hp : s.portHost = none) (h : Inv s) (hm : s.mode = .write)
    (slot : s.wrPos = 11#4) (he : EdgeSeen s c) :
    ∃ u, exec (.tick c d) s = .next (finish (if d then .failure else .success) u) := by
  have counted : Clocking (sampled s c) := (inv_sampled h c).clocking hm (by simp [sampled, slot])
  have level := sdaLevel_at_ack (h.clocking hm (by simp [slot])) slot d
  have ack (d : Level) : exec (.wrAck d) (sampled s c) = .next (writeAckSlot d (sampled s c)) := atSlot_write (writeAckSlot d) hm slot
  cases d with
  | false => exact ⟨_, tick_of_wrAck hr hp hm slot he counted (by rw [level]; exact ack false)⟩
  | true => exact ⟨_, tick_of_wrAck hr hp hm slot he (counted.raise .ackFailure) (by rw [level]; exact ack true)⟩

/-- The tick in which `dl_write` is due finishes the write as failed (43_timeouts.md R214). -/
theorem tick_write_deadline_finishes (hr : s.portReset = false) (hp : s.portHost = none) (h : Inv s) (hm : s.mode = .write)
    (he : ¬EdgeSeen s c) (due : s.dlWrite = some 0 ∨ s.dlWrite = some 1) : ∃ u, exec (.tick c d) s = .next (finish .failure u) := by
  obtain ⟨-, fires, -⟩ := deadlineFiresInItsTick s c d hr hp he
  rw [fires (h.writing hm).dlRead due.symm]
  have armed : (sampled s c).dlWrite ≠ none := by obtain due | due := due <;> simp [sampled, due]
  exact ⟨_, execToWrite_eq_next.mpr ⟨armed, hm, rfl⟩⟩

/-- The `H.COLLECT` of the tick that finishes the write takes the lock and the status (R230). -/
theorem waitWrite_of_finish {k : Completion} (n : Nat) (xs : List Sample) (hr : x.reset = false) (hu : bareTick x s = .next (finish k u)) :
    ∃ t, t.mode = .read ∧ t.lock = false ∧ t.wrStatus = .inactive ∧
      waitWrite (n + 1) (x :: xs) s = .returned (if completionStatus k = .success then .success else .writeFailure) t :=
  ⟨_, rfl, rfl, rfl, waitWrite_collected xs hr hu rfl⟩

/-- Settles O33: the tick's edge or deadline finishes the write before its `H.COLLECT` runs. -/
theorem blockingWriteEndsWithItsWrite : Obligations.BlockingWriteEndsWithItsWrite := by
  intro s x xs n h hm hr
  have bare : Inv { s with portHost := none, portReset := false } := h.of_unconstrained
  refine ⟨fun slot he => ?_, fun he due => ?_⟩
  · obtain ⟨u, hu⟩ := tick_ack_finishes x.sda rfl rfl bare hm slot he
    obtain ⟨t, mode, lock, status, returned⟩ := waitWrite_of_finish n xs hr hu
    refine ⟨t, mode, lock, status, returned.trans ?_⟩
    cases x.sda <;> rfl
  · obtain ⟨u, hu⟩ := tick_write_deadline_finishes (d := x.sda) rfl rfl bare hm he due
    exact waitWrite_of_finish n xs hr hu

end Sys2Proof.Machine
end

section
/-! SUPPORT. Proofs of the statements of 60_exceptions.md: no admitted event stops the block (R260), the host's calls return (R271), and
the writers of `irq_en` (R273). -/

namespace Sys2Proof.Machine

variable {s t u : State} {b : Byte} {i : Instr} {e : Event} {rest : List Event}

/-! ### The host's calls return (R271) -/

/-- A tick of a host call completes, whatever its inputs, in a state of the invariant with the same parameters. -/
theorem exists_hostTick (x : Sample) (cmd : Option HostCmd) (h : Inv s) : ∃ t, hostTick x cmd s = .next t ∧ Inv t ∧ t.par = s.par := by
  have loaded : Inv { s with portHost := cmd, portReset := x.reset } := h.of_unconstrained
  obtain ⟨t, ht⟩ := tickAlwaysCompletes _ x.scl x.sda loaded
  exact ⟨t, ht, inv_exec loaded ht, (exec_extends ht).par⟩

/-- Every tick of the wait of `writeBlocking` ends the call or takes one off the wait. -/
theorem waitWrite_returns {n : Nat} {xs : List Sample} (h : Inv s) (long : n ≤ xs.length) :
    ∃ r t, waitWrite n xs s = .returned r t ∧ Inv t := by
  induction n generalizing s xs with
  | zero => exact ⟨_, _, rfl, h.emit _⟩
  | succ n ih =>
    cases xs with
    | nil => simp at long
    | cons x xs =>
      obtain ⟨t, ht, inv, -⟩ := exists_hostTick x (some .collect) h
      by_cases answer : ∃ st, lastResult s t = some (.status st)
      · obtain ⟨st, status⟩ := answer
        exact ⟨_, t, waitWrite_of_status xs ht status, inv⟩
      · rw [waitWrite_of_ne_status xs ht (not_exists.mp answer)]
        exact ih inv (Nat.le_of_succ_le_succ long)

theorem writeBlocking_returns {xs : List Sample} (b : Byte) (h : Inv s) (long : s.par.tBlockWrite < xs.length) :
    ∃ r t, writeBlocking b xs s = .returned r t ∧ Inv t := by
  cases xs with
  | nil => simp at long
  | cons x xs =>
    obtain ⟨t, ht, inv, par⟩ := exists_hostTick x (some (.write b)) h
    by_cases busy : lastResult s t = some .busy
    · exact ⟨_, t, by rw [writeBlocking_cons b x xs s t ht, if_pos busy], inv⟩
    · rw [writeBlocking_of_ne_busy b ht busy par]
      exact waitWrite_returns inv (Nat.le_of_lt_succ long)

theorem waitRead_returns_of_queue {rest : List Byte} (n : Nat) (xs : List Sample) (h : Inv s) (head : s.queue = b :: rest) :
    ∃ r t, waitRead n xs s = .returned r t ∧ Inv t :=
  ⟨_, _, (waitRead_of_queue n xs head).trans (takeByte_of_queue head), inv_execHRead h (execHRead_of_queue head)⟩

/-- Every tick of the wait of `read` leaves a byte in the queue or takes one off the wait. -/
theorem waitRead_returns {n : Nat} {xs : List Sample} (h : Inv s) (long : n ≤ xs.length) :
    ∃ r t, waitRead n xs s = .returned r t ∧ Inv t := by
  induction n generalizing s xs with
  | zero =>
    cases hq : s.queue with
    | nil => exact ⟨_, _, waitRead_zero xs hq, h.emit _⟩
    | cons b rest => exact waitRead_returns_of_queue _ xs h hq
  | succ n ih =>
    cases hq : s.queue with
    | nil =>
      cases xs with
      | nil => simp at long
      | cons x xs =>
        obtain ⟨t, ht, inv, -⟩ := exists_hostTick x none h
        rw [waitRead_cons n xs hq ht]
        exact ih inv (Nat.le_of_succ_le_succ long)
    | cons b rest => exact waitRead_returns_of_queue _ xs h hq

/-- Settles O35: every tick of a call completes in the invariant and uses up one of the ticks the call waits for. -/
theorem blockingCallsReturnInBoundedTime : Obligations.BlockingCallsReturnInBoundedTime :=
  fun _ _ h => ⟨fun b => writeBlocking_returns b h, waitRead_returns h⟩

/-! ### No admitted event stops the block (R260) -/

theorem completes_exec_toRead (h : Inv s) (armed : s.dlRead ≠ none) : completes (exec .toRead s) :=
  ⟨_, execToRead_eq_next.mpr ⟨armed, (h.reading_of_dlRead armed).mode, rfl⟩⟩

theorem completes_exec_toWrite (h : Inv s) (armed : s.dlWrite ≠ none) : completes (exec .toWrite s) :=
  ⟨_, execToWrite_eq_next.mpr ⟨armed, (h.clocking_of_dlWrite armed).mode, rfl⟩⟩

theorem completes_exec_toInhibit (h : Inv s) (armed : s.dlInhibit ≠ none) : completes (exec .toInhibit s) :=
  have hold := h.holding_of_dlInhibit armed
  ⟨_, execToInhibit_eq_next.mpr ⟨armed, ⟨hold.mode, hold.wrPos⟩, rfl⟩⟩

theorem step_of_edge_eq_dispatchEdge (he : s.events = e :: rest) (hk : e.kind = 0#4) :
    step s = dispatchEdge (e.operand.getLsbD 0) (loadEvent e rest s) := by
  rw [step_cons he, decodeWord_formWord_of_edge hk, dispatchEdge_eq]
  rfl

/-- Settles O46: an edge finds its position in the frame, a deadline is armed in its own phase, every other event always completes. -/
theorem admittedEventsNeverStopTheBlock : Obligations.AdmittedEventsNeverStopTheBlock := by
  intro s e rest h he ha
  have loaded : Inv (loadEvent e rest s) := h.of_unconstrained
  have completes_of_decode {i : Instr} (hd : decodeWord (formWord e s) = .ok i) (hx : completes (exec i (loadEvent e rest s))) :
      completes (step s) := by rwa [step_of_decodeWord_ok he hd]
  have host (cmd : HostCmd) (hd : decodeWord (formWord e s) = .ok cmd.toInstr) : completes (step s) :=
    completes_of_decode hd (completes_exec_toInstr cmd _)
  obtain ⟨k, lt, kind⟩ := exists_lt_eq_ofNat e.kind
  -- The decoder looks at the kind first, so with the kind known the decoded operation computes.
  have kind_word : EventWord.kind (formWord e s) = BitVec.ofNat 4 k := by simp [formWord, kind]
  rw [admitted, kind] at ha
  simp only [decodeWord, kind_word] at completes_of_decode host
  interval_cases k
  · rw [step_of_edge_eq_dispatchEdge he kind]
    exact completes_dispatchEdge _ loaded
  · exact completes_of_decode rfl (completes_exec_toRead loaded (Option.isSome_iff_ne_none.mp ha))
  · exact completes_of_decode rfl (completes_exec_toWrite loaded (Option.isSome_iff_ne_none.mp ha))
  · exact completes_of_decode rfl (completes_exec_toInhibit loaded (Option.isSome_iff_ne_none.mp ha))
  · exact host (.write _) rfl
  · exact host .collect rfl
  · exact completes_of_decode (i := .reset) rfl ⟨_, rfl⟩
  · exact completes_of_decode rfl (tickAlwaysCompletes _ _ _ loaded)
  · exact host (.configure _) rfl
  · exact host .enableCb rfl
  · exact host .disableCb rfl
  · exact host .read rfl
  all_goals cases ha

/-! ### The writers of `irq_en` (R273) -/

/-- The operations that can start a write: the host's own, and those that can abort with resend (41_read_frame.md R156). -/
def CanStartWrite (i : Instr) : Prop := (∃ b, i = .hWrite b) ∨ (∃ d, i = .rdParity d) ∨ i = .rdStop false ∨ i = .toRead

/-- What an operation can do to `irq_en`: keep it; set it at the end of the hold; clear it with the start of a write, the host's or the one
inside an abort with resend. -/
inductive IrqStep (i : Instr) (s t : State) : Prop where
  | kept (irqEn : t.irqEn = s.irqEn)
  | enabled (operation : i = .toInhibit) (irqEn : t.irqEn = true)
  | cleared (operation : CanStartWrite i) (before : s.mode = .read) (after : t.mode = .write) (irqEn : t.irqEn = false)

theorem abortResend_irqStep (mode : u.mode = s.mode) (irqEn : u.irqEn = s.irqEn) (hm : s.mode = .read)
    (operation : CanStartWrite i) : IrqStep i s (abortResend u) := by
  rw [abortResend_read (mode.trans hm)]
  simp only [admitWrite_eq]
  split
  · exact .cleared operation hm rfl rfl
  · split
    · exact .cleared operation hm rfl rfl
    · exact .kept irqEn

theorem readStartSlot_irqEn (d : Level) (s : State) : (readStartSlot d s).irqEn = s.irqEn := by
  rw [readStartSlot_eq]
  split <;> rfl

theorem finalize_irqEn (s : State) : (finalize s).irqEn = s.irqEn := by
  rw [finalize_eq]
  obtain ⟨q, ds, n, os, h⟩ := deliver_frame s.rdAcc _
  rw [h]

theorem readParitySlot_irqStep (d : Level) (hm : s.mode = .read) : IrqStep (.rdParity d) s (readParitySlot d s) := by
  rw [readParitySlot_eq]
  split
  · exact .kept rfl
  · exact abortResend_irqStep rfl rfl hm (.inr (.inl ⟨d, rfl⟩))

theorem readStopSlot_irqStep (d : Level) (hm : s.mode = .read) : IrqStep (.rdStop d) s (readStopSlot d s) := by
  rw [readStopSlot_eq]
  cases d with
  | true => exact .kept (finalize_irqEn s)
  | false => exact abortResend_irqStep rfl rfl hm (.inr (.inr (.inl rfl)))

theorem readTimeout_irqStep (hm : s.mode = .read) : IrqStep .toRead s (readTimeout s) := by
  rw [readTimeout_eq]
  split
  · exact .kept rfl
  · exact abortResend_irqStep rfl rfl hm (.inr (.inr (.inr rfl)))

theorem writeAckSlot_irqEn (d : Level) (s : State) : (writeAckSlot d s).irqEn = s.irqEn := by
  rw [writeAckSlot_eq]
  split <;> rfl

theorem exec_toInstr_irqStep {cmd : HostCmd} (hx : exec cmd.toInstr s = .next t) : IrqStep cmd.toInstr s t := by
  cases cmd with
  | write b =>
    cases hx
    cases hm : s.mode with
    | read =>
      rw [initiateWrite_read b hm, admitWrite_eq]
      exact .cleared (.inl ⟨b, rfl⟩) hm rfl rfl
    | write =>
      rw [initiateWrite_write b hm]
      exact .kept rfl
  | collect =>
    simp only [HostCmd.toInstr, exec, execHCollect] at hx
    split at hx <;> cases hx <;> exact .kept rfl
  | configure p => cases p <;> cases hx <;> exact .kept rfl
  | enableCb | disableCb =>
    cases hx
    exact .kept rfl
  | read =>
    simp only [HostCmd.toInstr, exec, execHRead] at hx
    split at hx <;> cases hx <;> exact .kept rfl

theorem IrqStep.of_atSlot {m : Mode} {k : Slot} {f : State → State} (hx : atSlot m k f s = .next t)
    (hf : s.mode = m → IrqStep i s (f s)) : IrqStep i s t := by
  obtain ⟨⟨hm, -⟩, rfl⟩ := atSlot_eq_next.mp hx
  exact hf hm

theorem exec_irqStep (hi : singleEvent i = true) (hx : exec i s = .next t) : IrqStep i s t := by
  cases i with
  | rdStart d => exact .of_atSlot hx fun _ => .kept (readStartSlot_irqEn d s)
  | rdData1 d | rdData2 d | rdData3 d | rdData4 d | rdData5 d | rdData6 d | rdData7 d | rdData8 d =>
    exact .of_atSlot hx fun _ => .kept rfl
  | rdParity d => exact .of_atSlot hx (readParitySlot_irqStep d)
  | rdStop d => exact .of_atSlot hx (readStopSlot_irqStep d)
  | wrStart d => exact .of_atSlot (f := fun s => s.cancel .write) hx fun _ => .kept rfl
  | wrData1 d | wrData2 d | wrData3 d | wrData4 d | wrData5 d | wrData6 d | wrData7 d | wrData8 d | wrParity d | wrStop d =>
    exact .of_atSlot hx fun _ => .kept rfl
  | wrAck d => exact .of_atSlot hx fun _ => .kept (writeAckSlot_irqEn d s)
  | toRead =>
    obtain ⟨-, hm, rfl⟩ := execToRead_eq_next.mp hx
    exact readTimeout_irqStep hm
  | toWrite =>
    obtain ⟨-, -, rfl⟩ := execToWrite_eq_next.mp hx
    exact .kept rfl
  | toInhibit =>
    obtain ⟨-, -, rfl⟩ := execToInhibit_eq_next.mp hx
    exact .enabled rfl rfl
  | hWrite b => exact exec_toInstr_irqStep (cmd := .write b) hx
  | hCollect => exact exec_toInstr_irqStep (cmd := .collect) hx
  | hConfigure p => exact exec_toInstr_irqStep (cmd := .configure p) hx
  | hEnableCb => exact exec_toInstr_irqStep (cmd := .enableCb) hx
  | hDisableCb => exact exec_toInstr_irqStep (cmd := .disableCb) hx
  | hRead => exact exec_toInstr_irqStep (cmd := .read) hx
  | reset | tick c d => cases hi

/-- Settles O48: every operation keeps `irq_en`, or is `TO.INHIBIT`, or starts a write. -/
theorem interruptEnableWriters : Obligations.InterruptEnableWriters := by
  intro i s t hi hx changed
  cases exec_irqStep hi hx with
  | kept irqEn => exact absurd irqEn changed
  | enabled operation irqEn => exact .inl ⟨operation, irqEn⟩
  | cleared operation before after irqEn => exact .inr ⟨irqEn, before, after, operation⟩

end Sys2Proof.Machine
end

section
/-! SUPPORT. Proofs of the statements of 70_reset_and_hazards.md: a tick with `reset` (R300), the state after it (R301), a host that waits
through it (R302), and the length of the hold (R323). -/

namespace Sys2Proof.Machine

variable {s t : State} {c d : Level} {x : Sample} {n : Nat}

/-! ### The tick of a reset and the state it leaves (R300, R301) -/

/-- Settles O10: the port of `reset` is looked at before any phase. -/
theorem resetWinsItsTick : Obligations.ResetWinsItsTick := fun _ c d hr => execTick_reset c d hr

/-- Settles O44: a `RESET`, which leaves any state in the invariant, leaves the reset state as it is. -/
theorem resetSatisfiesTheInvariant : Obligations.ResetSatisfiesTheInvariant :=
  ⟨inv_resetRegisters State.reset, ⟨nofun, nofun, nofun⟩, rfl, rfl, rfl, rfl, rfl, rfl, rfl⟩

/-! ### A host that waits through a reset (R302) -/

theorem bareTick_idle (h : Idle s) (prev : s.sclPrev = true) (hp : s.portHost = none) (hr : s.portReset = false) (high : x.scl = true) :
    bareTick x s = .next s :=
  hostTick_idle (x := { x with reset := false }) h prev hp hr high rfl

/-- On a quiet bus nothing ends a write for an idle block, so the whole wait is answered `Blocked`. -/
theorem waitWrite_idle {xs : List Sample} (h : Idle s) (prev : s.sclPrev = true) (hp : s.portHost = none) (hr : s.portReset = false)
    (untaken : s.lock = false) (long : n ≤ xs.length) (quiet : ∀ y ∈ xs, y.scl = true ∧ y.reset = false) :
    waitWrite n xs s = .returned .timeout
      { s with outs := s.outs ++ List.replicate n (.result .blocked) ++ [.err .timeout .read 0#4] } := by
  induction n generalizing s xs with
  | zero =>
    obtain ⟨mode, slot, -⟩ := h
    rw [waitWrite_zero, raise_read .timeout mode slot, List.replicate_zero, List.append_nil]
    rfl
  | succ n ih =>
    cases xs with
    | nil => simp at long
    | cons y ys =>
      obtain ⟨⟨high, unreset⟩, later⟩ := List.forall_mem_cons.mp quiet
      have answered := ih (s := { s with outs := s.outs ++ [.result .blocked] }) h prev hp hr untaken
        (Nat.le_of_succ_le_succ long) later
      rw [waitWrite_blocked ys unreset (bareTick_idle h prev hp hr high) untaken, answered, List.append_assoc s.outs]
      rfl

/-- Settles O34: the tick of the `RESET` answers nothing and leaves the block idle, with the lock not given. -/
theorem resetLeavesAWaitingHostToItsTimeout : Obligations.ResetLeavesAWaitingHostToItsTimeout := by
  intro s x xs n hr long quiet
  have waited := waitWrite_idle (s := resetRegisters { s with portHost := none, portReset := false })
    ⟨rfl, rfl, rfl, rfl, rfl, rfl, rfl⟩ rfl rfl rfl rfl long quiet
  obtain ⟨ht, silent, -⟩ := hostTick_reset_silent .collect hr rfl
  refine ⟨_, (waitWrite_of_ne_status xs ht (by simp [silent])).trans waited, fun bound b => ?_, rfl, rfl, rfl, rfl⟩
  obtain ⟨ht, silent, par⟩ := hostTick_reset_silent (.write b) hr rfl
  rw [writeBlocking_of_ne_busy b ht (by simp [silent]) par, ← bound, waited]

/-! ### The length of the hold (R323, 42_write_frame.md R174) -/

/-- In the hold no edge is seen and the host can start no write, so a tick moves the clock as its phase 4 does (R122, R171). -/
theorem sameClock_of_tick_in_hold {v : State} (h : Holding s) (hr : s.portReset = false)
    (hv : deadlinePhase (sampled s c) = .next v) (hm : v.mode = .write) (hx : exec (.tick c d) s = .next t) : SameClock v t := by
  obtain ⟨reset, -⟩ | ⟨-, u, w, hu, hw, ht⟩ := execTick_cases hx
  · simp [hr] at reset
  have unseen : ¬EdgeSeen s c := by simp [EdgeSeen, h.irqEn]
  rw [edgePhase_of_not_edgeSeen unseen] at hu
  cases hu
  cases hv.symm.trans hw
  exact (sameClock_or_of_hostPhase ht).resolve_right (by simp [hm])

/-- A tick that leaves the hold time to run takes one off it. -/
theorem hold_counts (h : Holding s) (hr : s.portReset = false) (left : s.dlInhibit = some (n + 2))
    (hx : exec (.tick c d) s = .next t) : InHold t ∧ t.dlInhibit = some (n + 1) := by
  have phase : deadlinePhase (sampled s c) = .next (sampled s c) :=
    deadlinePhase_quiet (by simp [sampled, h.dlRead]) (by simp [sampled, h.dlWrite]) (by simp [sampled, left])
  have same := sameClock_of_tick_in_hold h hr phase h.mode hx
  exact ⟨⟨same.mode.trans h.mode, same.wrPos.trans h.wrPos⟩, same.dlInhibit.trans (by simp [sampled, left])⟩

/-- What the end of the hold leaves, whatever the host does in its tick (42_write_frame.md R176). -/
structure HoldEnded (s t : State) : Prop where
  mode : t.mode = .write
  wrPos : t.wrPos = 1#4
  irqEn : t.irqEn = true
  dlInhibit : t.dlInhibit = none
  dlWrite : t.dlWrite = some s.par.tWriteFirst

/-- The last tick of the hold is its `TO.INHIBIT`. -/
theorem hold_ends (h : Inv s) (hh : InHold s) (hr : s.portReset = false) (left : s.dlInhibit = some 1)
    (hx : exec (.tick c d) s = .next t) : HoldEnded s t := by
  have hold := h.holding hh
  have phase : deadlinePhase (sampled s c) = .next (releaseClock (sampled s c)) := by
    rw [deadlinePhase_inhibit (by simp [sampled, hold.dlRead]) (by simp [sampled, hold.dlWrite]) (by simp [sampled, left])]
    exact execToInhibit_eq_next.mpr ⟨by simp [sampled, left], hh, rfl⟩
  have mode : (releaseClock (sampled s c)).mode = .write := (releaseClock_mode _).trans hold.mode
  have same := sameClock_of_tick_in_hold hold hr phase mode hx
  have slot : t.wrPos = 1#4 := same.wrPos
  have clocking : Clocking t := (inv_exec h hx).clocking (same.mode.trans mode) (by simp [slot])
  exact ⟨clocking.mode, slot, clocking.irqEn, clocking.dlInhibit, same.dlWrite⟩

/-- A step on the first of some ticks without `reset`: the tick completes, and the others are still to come. -/
theorem exists_step_of_ticksOnly (h : Inv s) (len : n + 1 ≤ s.events.length) (only : TicksOnly (s.events.take (n + 1))) :
    ∃ e rest c d t, e.reset = false ∧ exec (.tick c d) (loadEvent e rest s) = .next t ∧ step s = .next t ∧
      n ≤ t.events.length ∧ TicksOnly (t.events.take n) := by
  cases he : s.events with
  | nil => simp [he] at len
  | cons e rest =>
    rw [he, List.take_succ_cons] at only
    rw [he, List.length_cons] at len
    obtain ⟨⟨kind, reset⟩, others⟩ := List.forall_mem_cons.mp only
    obtain ⟨c, d, run⟩ := step_of_tick he kind
    obtain ⟨t, ht⟩ := tickAlwaysCompletes (loadEvent e rest s) c d h.of_unconstrained
    have events : t.events = rest := (exec_extends ht).events
    exact ⟨e, rest, c, d, t, reset, ht, run.trans ht, events ▸ Nat.le_of_succ_le_succ len, events ▸ others⟩

theorem hold_lasts (h : Inv s) (hh : InHold s) (left : s.dlInhibit = some (n + 1)) (len : n + 1 ≤ s.events.length)
    (only : TicksOnly (s.events.take (n + 1))) :
    (∀ k, k < n + 1 → ∃ t, Host.Core.run core k s = .next t ∧ InHold t ∧ t.dlInhibit = some (n + 1 - k)) ∧
      ∃ t, Host.Core.run core (n + 1) s = .next t ∧ HoldEnded s t := by
  induction n generalizing s with
  | zero =>
    obtain ⟨e, rest, c, d, t, reset, tick, hx, -⟩ := exists_step_of_ticksOnly h len only
    refine ⟨fun k hk => ?_, t, run_succ_of_step 0 hx, ?_⟩
    · obtain rfl : k = 0 := by omega
      exact ⟨s, rfl, hh, left⟩
    · have loaded : Inv (loadEvent e rest s) := h.of_unconstrained
      exact { hold_ends loaded hh reset left tick with }
  | succ n ih =>
    obtain ⟨e, rest, c, d, t, reset, tick, hx, long, others⟩ := exists_step_of_ticksOnly h len only
    have loaded : Inv (loadEvent e rest s) := h.of_unconstrained
    obtain ⟨hold, counted⟩ := hold_counts (loaded.holding hh) reset left tick
    obtain ⟨during, u, last, ended⟩ := ih (inv_exec loaded tick) hold counted long others
    have par : t.par = s.par := (exec_extends tick).par
    refine ⟨fun k hk => ?_, u, (run_succ_of_step _ hx).trans last, { ended with dlWrite := par ▸ ended.dlWrite }⟩
    cases k with
    | zero => exact ⟨s, rfl, hh, left⟩
    | succ k =>
      obtain ⟨v, run, holds, remaining⟩ := during k (Nat.lt_of_succ_lt_succ hk)
      exact ⟨v, (run_succ_of_step k hx).trans run, holds, remaining.trans (by rw [Nat.succ_sub_succ])⟩

/-- Settles O58: each tick of the hold takes one off its deadline, and the last one ends it. -/
theorem holdLastsExactly : Obligations.HoldLastsExactly := by
  intro s n h hh left positive len only
  obtain ⟨m, rfl⟩ : ∃ m, n = m + 1 := Nat.exists_eq_add_one.mpr positive
  obtain ⟨during, t, last, ended⟩ := hold_lasts h hh left len only
  exact ⟨during, t, last, ended.mode, ended.wrPos, ended.irqEn, ended.dlInhibit, ended.dlWrite⟩

end Sys2Proof.Machine
end

section
/-! SUPPORT. Proofs of the statements of 30_encoding.md about the event word: the round trips of decoder and encoder (R96 to R100), and the
words listed in 95_test_vectors.md. -/

namespace Sys2Proof

/-! ### A word and its fields (R96, R99) -/

theorem EventWord.make_fields (w : EventWord) : make (kind w) (mode w) (slot w) (operand w) = w := by
  apply BitVec.eq_of_getLsbD_eq
  intro i hi
  interval_cases i <;> simp [make, kind, slot, operand, modeBit_mode]

/-- A row's `match` value leaves the operand field free, which the operand then fills. -/
theorem tableWord_make (k : BitVec 4) (m : Mode) (p : Slot) (o : Byte) :
    tableWord (EventWord.make k m p 0#8) o = EventWord.make k m p o := by
  simp [tableWord, EventWord.make]

theorem EventWord.operand_and_operandMask {w : EventWord} (clean : operandClean w = true) :
    operand w &&& operandMask (kind w) = operand w := by
  have unused : operand w &&& ~~~operandMask (kind w) = 0#8 := beq_iff_eq.mp clean
  calc operand w &&& operandMask (kind w)
    _ = operand w &&& operandMask (kind w) ||| operand w &&& ~~~operandMask (kind w) := by rw [unused, BitVec.or_zero]
    _ = operand w := by rw [← BitVec.and_or_distrib_left, BitVec.or_not_self, BitVec.and_allOnes]

theorem bitOperand_getLsbD (o : Byte) : bitOperand (o.getLsbD 0) = o &&& 0x01#8 := (BitVec.and_twoPow o 0).symm

theorem tickOperand_getLsbD (o : Byte) : tickOperand (o.getLsbD 0) (o.getLsbD 1) = o &&& 0x03#8 :=
  calc tickOperand (o.getLsbD 0) (o.getLsbD 1)
    _ = (o &&& BitVec.twoPow 8 0) ||| (o &&& BitVec.twoPow 8 1) := by rw [BitVec.and_twoPow, BitVec.and_twoPow]; rfl
    _ = o &&& 0x03#8 := BitVec.and_or_distrib_left.symm

/-! ### The word of a decoded operation: the fields the decoder read, all other bits 0 (R97 to R100) -/

theorem encode_of_edgeInstr {m : Mode} {k : Slot} {d : Level} {i : Instr} (hi : edgeInstr m k d = .ok i) :
    encode i = EventWord.make 0#4 m k (bitOperand d) := by
  obtain ⟨p, hp, rfl⟩ := exists_lt_eq_ofNat k
  rw [← tableWord_make]
  cases m with
  | read => interval_cases p <;> cases hi <;> rfl
  | write => interval_cases p <;> cases hi <;> rfl

theorem encode_of_decodeWord_edge {w : EventWord} {i : Instr} (hk : EventWord.kind w = 0#4) (hd : decodeWord w = .ok i) :
    encode i = EventWord.make (EventWord.kind w) (EventWord.mode w) (EventWord.slot w)
      (EventWord.operand w &&& operandMask (EventWord.kind w)) := by
  rw [decodeWord_of_edge hk] at hd
  rw [encode_of_edgeInstr hd, bitOperand_getLsbD, hk]
  rfl

theorem encode_of_decodeWord_not_edge {w : EventWord} {i : Instr} (hk : EventWord.kind w ≠ 0#4) (hd : decodeWord w = .ok i) :
    encode i = EventWord.make (EventWord.kind w) .read 0#4 (EventWord.operand w &&& operandMask (EventWord.kind w)) := by
  obtain ⟨k, lt, kind⟩ := exists_lt_eq_ofNat (EventWord.kind w)
  rw [decodeWord, kind] at hd
  rw [kind, ← tableWord_make]
  interval_cases k
  · exact absurd kind hk
  all_goals cases hd
  -- Goal `k` is that of kind `k`; kinds 8, 7 and 4 have an operand.
  on_goal 8 => exact congrArg (tableWord 0x10000#17) (bitOperand_getLsbD _)
  on_goal 7 => exact congrArg (tableWord 0x0E000#17) (tickOperand_getLsbD _)
  on_goal 4 => exact congrArg (tableWord 0x08000#17) BitVec.and_allOnes.symm
  all_goals exact congrArg (tableWord _) BitVec.and_zero.symm

/-- Settles O2: the operation's word has the fields the decoder read from `w`, and the premises say that `w` has no other bit. -/
theorem encodeOfDecode : Obligations.EncodeOfDecode := by
  intro w i clean unused hd
  rw [← EventWord.make_fields w]
  by_cases hk : EventWord.kind w = 0#4
  · rw [encode_of_decodeWord_edge hk hd, EventWord.operand_and_operandMask clean]
  · obtain ⟨mode, slot⟩ := unused hk
    rw [encode_of_decodeWord_not_edge hk hd, EventWord.operand_and_operandMask clean, mode, slot]

/-! ### Decoding the word of an operation (R97 to R100) -/

theorem decodeWord_encode_of_edgeInstr {m : Mode} {k : Slot} {d : Level} {i : Instr} (hi : edgeInstr m k d = .ok i) :
    decodeWord (encode i) = .ok i := by
  rw [encode_of_edgeInstr hi, decodeWord_make_edge, bitOperand_bit, hi]

theorem exists_slot_of_mem {ops : List Instr} (fits : ops.length ≤ 16) {i : Instr} (hi : i ∈ ops) :
    ∃ k : Slot, ops[k.toNat]? = some i := by
  obtain ⟨p, hp, at_p⟩ := List.mem_iff_getElem.mp hi
  exact ⟨⟨p, by omega⟩, List.getElem?_eq_some_iff.mpr ⟨hp, at_p⟩⟩

theorem decodeWord_encode_of_mem_readOps {d : Level} {i : Instr} (hi : i ∈ Machine.readOps d) : decodeWord (encode i) = .ok i := by
  obtain ⟨k, at_k⟩ := exists_slot_of_mem (by simp [Machine.readOps]) hi
  exact decodeWord_encode_of_edgeInstr (edgeInstr_read_eq_ok_iff.mpr at_k)

theorem decodeWord_encode_of_mem_writeOps {d : Level} {i : Instr} (hi : i ∈ Machine.writeOps d) : decodeWord (encode i) = .ok i := by
  obtain ⟨k, at_k⟩ := exists_slot_of_mem (by simp [Machine.writeOps]) hi
  exact decodeWord_encode_of_edgeInstr (edgeInstr_write_eq_ok_iff.mpr at_k)

theorem decodeWord_encode_hWrite (b : Byte) : decodeWord (encode (.hWrite b)) = .ok (.hWrite b) := by
  have word : encode (.hWrite b) = EventWord.make 4#4 .read 0#4 b := tableWord_make 4#4 .read 0#4 b
  simp [word, decodeWord]

/-- Settles O1: an edge operation's word names its mode and slot, any other operation's word its kind, and the operand is read back. -/
theorem decodeOfEncode : Obligations.DecodeOfEncode := by
  intro i
  cases i with
  | rdStart d | rdData1 d | rdData2 d | rdData3 d | rdData4 d | rdData5 d | rdData6 d | rdData7 d | rdData8 d | rdParity d | rdStop d =>
    exact decodeWord_encode_of_mem_readOps (d := d) (by simp [Machine.readOps])
  | wrStart d | wrData1 d | wrData2 d | wrData3 d | wrData4 d | wrData5 d | wrData6 d | wrData7 d | wrData8 d | wrParity d | wrStop d
  | wrAck d =>
    exact decodeWord_encode_of_mem_writeOps (d := d) (by simp [Machine.writeOps])
  | hWrite b => exact decodeWord_encode_hWrite b
  | tick c d => cases c <;> cases d <;> rfl
  | hConfigure p => cases p <;> rfl
  | toRead | toWrite | toInhibit | hCollect | reset | hEnableCb | hDisableCb | hRead => rfl

/-- Settles O5: the decoder is evaluated on each listed word. -/
theorem listedWordsDecode : Obligations.ListedWordsDecode := by
  unfold Obligations.ListedWordsDecode
  decide

end Sys2Proof
end
